-- ==== Sys2Proof/Word.lean ====
section
/-! DEFINITION. The word and byte types, and the ten-slot table the Register Block is made of. -/

namespace Sys2Proof

/-- A word is 32 bits (R9). -/
abbrev Word := BitVec 32

/-- A byte is 8 bits (R10). -/
abbrev Byte := BitVec 8

/-- A table of ten slots 0 .. 9 (R14: `N_REGS` = 10). -/
structure Slots (α : Type) where
  x0 : α
  x1 : α
  x2 : α
  x3 : α
  x4 : α
  x5 : α
  x6 : α
  x7 : α
  x8 : α
  x9 : α
deriving DecidableEq, Repr

/-- The Register Block buffer `RB`: ten 32-bit words (R14). -/
abbrev RegBlock := Slots Word

end Sys2Proof
end

