-- ==== Sys2Proof/Machine/Bytes.lean ====
section
/-! DEFINITION. Byte strings and the two byte orders (R10, R47 to R49). -/

namespace Sys2Proof.Machine

/-- `LE32(v)`: least significant byte first (R10). -/
def le32 (v : Word) : List Byte :=
  [v.extractLsb' 0 8, v.extractLsb' 8 8, v.extractLsb' 16 8, v.extractLsb' 24 8]

/-- `fromLE32(s)` of a 4-byte string (R10); only the first four bytes are read. -/
def fromLe32 (s : List Byte) : Word :=
  s.getD 3 0 ++ s.getD 2 0 ++ s.getD 1 0 ++ s.getD 0 0

/-- `BE24(a)`: most significant byte first (R10, R49). -/
def be24 (a : Nat) : List Byte :=
  [BitVec.ofNat 8 (a / 65536), BitVec.ofNat 8 (a / 256), BitVec.ofNat 8 a]

/-- The address whose `BE24` the three bytes are. -/
def fromBe24 (b2 b1 b0 : Byte) : Nat :=
  b2.toNat * 65536 + b1.toNat * 256 + b0.toNat

/-- `s[i:j]` (R10). -/
def slice (s : List Byte) (i j : Nat) : List Byte :=
  (s.drop i).take (j - i)

/-- Flash addresses are 24 bits: `2^24` of them (R45). -/
abbrev flashSize : Nat := 16777216

end Sys2Proof.Machine
end

