-- ==== Sys2Proof/Config.lean ====
section
/-! DEFINITION. What an implementation fixes (the OPEN parameters of R7) and the free values. -/

namespace Sys2Proof

/-- The eleven register names of R15 (ten slots, 90_conflicts.md C1). -/
inductive RegName where
  | control | transferFormat | transferControl | command | address | data | status
  | interruptEnable | interruptStatus | timing | configuration
deriving DecidableEq, Repr

/-- Every named field of R20 to R30, register by register. -/
inductive Field where
  -- Control (R20)
  | spiRst | rxFifoRst | txFifoRst | rxDmaEn | txDmaEn | rxThres | txThres
  -- TransferFormat (R21)
  | cpha | cpol | slvMode | lsb | mosiBiDir | dataMerge | dataLen | addrLen
  -- TransferControl (R22)
  | rdTranCnt | dummyCnt | tokenValue | wrTranCnt | tokenEn | dualQuad | transMode
  | addrFmt | addrEn | cmdEn | slvDataOnly
  -- Command, Address, Data (R23 to R25)
  | cmd | addr | dataWord
  -- Status (R26)
  | spiActive | rxNum | rxEmpty | rxFull | txNum | txEmpty | txFull
  -- InterruptEnable (R27)
  | rxFifoOrIntEn | txFifoUrIntEn | rxFifoIntEn | txFifoIntEn | endIntEn | slvCmdEn
  -- InterruptStatus (R28)
  | rxFifoOrInt | txFifoUrInt | rxFifoInt | txFifoInt | endInt | slvCmdInt
  -- Timing (R29)
  | sclkDiv | csht | cs2sclk
  -- Configuration (R30)
  | rxFifoSize | txFifoSize | dualSpi | quadSpi | directIo | ahbMem | eilmMem | slave
deriving DecidableEq, Repr

/-- One row of `FIELD_LAYOUT`: the field stands at bits `lo + width - 1 : lo` of its register. -/
structure FieldBits where
  field : Field
  lo : Nat
  width : Nat
deriving DecidableEq, Repr

/-- `REG_DEFAULTS`: the default word of each register name (R87). -/
structure RegDefaults where
  control : Word
  transferFormat : Word
  transferControl : Word
  command : Word
  address : Word
  data : Word
  status : Word
  interruptEnable : Word
  interruptStatus : Word
  timing : Word
  configuration : Word
deriving DecidableEq, Repr

/-- The five transfer modes of R75. -/
inductive Mode where
  | writeOnly | readOnly | writeThenRead | writeDummyRead | noData
deriving DecidableEq, Repr

/-- `MODE_CODE`: the number written to TransMode for each mode (R75). -/
structure ModeCodes where
  writeOnly : Nat
  readOnly : Nat
  writeThenRead : Nat
  writeDummyRead : Nat
  noData : Nat
deriving DecidableEq, Repr

/-- The OPEN parameters of R7, and the status sentinel that R7 calls OPEN too. They are plain data, held in State, so that
a statement about every state is a statement about every choice of them. -/
structure Config where
  /-- `REG_SLOT`, written as the name that stands in each slot (R15): injective when no name stands twice. -/
  slots : Slots RegName
  /-- `FIELD_LAYOUT` (R20 to R30, decision D4). -/
  layout : List FieldBits
  /-- `REG_DEFAULTS` (R87, decision D5). -/
  defaults : RegDefaults
  /-- `MODE_CODE` (R75, decision D6). -/
  modes : ModeCodes
  /-- `STATUS_SENTINEL` (R7, R159). -/
  sentinel : Word
  /-- `MAX_PACKET`, `none` for unbounded (R7, decision D23). -/
  maxPacket : Option Nat
  /-- `TIMEOUT_MS` of every transport call (R141, decision D31). -/
  timeoutMs : Nat
  /-- `VENDOR_ID` passed to `open` (R141, decision D31). -/
  vendorId : Nat
  /-- `PRODUCT_ID` passed to `open` (R141, decision D31). -/
  productId : Nat
deriving DecidableEq, Repr

/-- The two sub-kinds of a transport failure (R131, code 7). -/
inductive FailKind where
  | timeout
  | io
deriving DecidableEq, Repr, Inhabited

/-- The transport's answer to one bulk write: a count of bytes written, or a failure (R3, R141). -/
inductive WriteAnswer where
  | count (n : Nat)
  | failed (k : FailKind)
deriving DecidableEq, Repr, Inhabited

/-- The transport's answer to one bulk read: a byte string, or a failure (R3, R141). -/
inductive ReadAnswer where
  | bytes (s : List Byte)
  | failed (k : FailKind)
deriving DecidableEq, Repr, Inhabited

/-- The transport's answer to `open`: a handle, or NotFound (R141). -/
inductive OpenAnswer where
  | opened
  | notFound
deriving DecidableEq, Repr, Inhabited

/-- FREE VALUE (log 3): what the arbitrary environment answers to its `n`-th unscripted call, when that is a write. -/
opaque Config.freeWrite : Nat → WriteAnswer

/-- FREE VALUE (log 3): the same for a read. -/
opaque Config.freeRead : Nat → ReadAnswer

/-- FREE VALUE (log 3): the same for an open. -/
opaque Config.freeOpen : Nat → OpenAnswer

/-- FREE VALUE (log 16): how the transport fails a packet of `len` bytes that is beyond `MAX_PACKET`. -/
opaque Config.oversizeFailure : Nat → FailKind

/-- FREE VALUE (log 7): `TIMEOUT_MS` of the configuration after reset, which the spec leaves OPEN without a default. -/
opaque Config.anyTimeoutMs : Nat

/-- FREE VALUE (log 7): `VENDOR_ID` of the configuration after reset. -/
opaque Config.anyVendorId : Nat

/-- FREE VALUE (log 7): `PRODUCT_ID` of the configuration after reset. -/
opaque Config.anyProductId : Nat

/-- FREE VALUE (log 20): byte `i` of a flash frame that is too short to hold its address (reference flash only). -/
opaque Config.missingFrameByte : Nat → Byte

end Sys2Proof
end

