-- ==== Sys2Proof/Machine/Errors.lean ====
section
/-! DEFINITION. The error kinds of R131, their codes and recorded values, and the RESULT they end in. -/

namespace Sys2Proof.Machine

/-- The offending operands an InvalidArgument records (R131 row 9). -/
inductive BadArg where
  /-- `(addr, length)` of READ_DATA or `(addr, len(payload))` of PROGRAM beyond 24 bits (R123, R130). -/
  | range (addr len : Nat)
  /-- `addr` of ERASE_64KB or PROGRAM_PAGE beyond 24 bits (R128, R129). -/
  | addr (a : Nat)
  /-- `page_size = 0` (R130). -/
  | pageSize (n : Nat)
  /-- The write bytes of a TRANSACT whose packet payload would reach `2^32` bytes (R96, R104). -/
  | wbytes (w : List Byte)
deriving DecidableEq, Repr

/-- An error kind of R131 with its recorded values. -/
inductive Err where
  | malformedPacket (len : Nat)
  | lengthMismatch (declared actual : Nat)
  | shortWrite (requested written : Nat)
  | statusMismatch (observed : Word)
  | lengthAccounting (expected actual : Nat)
  | registerBlockLength (len : Nat)
  | transportError (k : FailKind)
  | notFound (vendorId productId : Nat)
  | invalidArgument (a : BadArg)
deriving DecidableEq, Repr

/-- The code of each kind (R131). -/
def errCode : Err → Nat
  | .malformedPacket _ => 1
  | .lengthMismatch _ _ => 2
  | .shortWrite _ _ => 3
  | .statusMismatch _ => 4
  | .lengthAccounting _ _ => 5
  | .registerBlockLength _ => 6
  | .transportError _ => 7
  | .notFound _ _ => 8
  | .invalidArgument _ => 9

/-- The value the request port returns (R39): `OK(s)` or `ERR(code, info)`. -/
inductive Result where
  | ok (s : List Byte)
  | err (e : Err)
deriving DecidableEq, Repr

/-- The code of a result: 0 for OK (R131). -/
def resultCode : Result → Nat
  | .ok _ => 0
  | .err e => errCode e

end Sys2Proof.Machine
end

