-- ==== Sys2Proof/Machine/Codec.lean ====
section
/-! DEFINITION. The Packet Codec (R70, R95, R97). -/

namespace Sys2Proof.Machine

/-- Length of the packet header (R7 `HDR_BYTES`). -/
abbrev hdrBytes : Nat := 8

/-- `Encode(command, payload)` (R95). A payload of `2^32` bytes or more is never passed (R96). -/
def encodePacket (command : Word) (payload : List Byte) : List Byte :=
  le32 command ++ le32 (BitVec.ofNat 32 payload.length) ++ payload

/-- `Decode(raw)` (R97): the short-packet check first, then the length check; the command word is returned unchecked. -/
def decodePacket (raw : List Byte) : Except Err (Word × List Byte) :=
  if raw.length < hdrBytes then
    .error (.malformedPacket raw.length)
  else
    let declared := (fromLe32 (slice raw 4 8)).toNat
    if raw.length - hdrBytes ≠ declared then
      .error (.lengthMismatch declared (raw.length - hdrBytes))
    else
      .ok (fromLe32 (slice raw 0 4), raw.drop hdrBytes)

end Sys2Proof.Machine
end

