-- ==== Sys2Proof/Machine/Layout.lean ====
section
/-! DEFINITION. The named constants of R7, and the spec's defaults of the OPEN parameters (R15, R20 to R30, R75, R87). -/

namespace Sys2Proof.Machine

/-! ### Constants the source fixes (R7, U1) -/

/-- Command word of SET_REGISTER (R71). -/
def cmdSetRegister : Word := 0x00020000#32
/-- Command word of READ_REGISTER (R71). -/
def cmdReadRegister : Word := 0x00020001#32
/-- Command word of READ_DATA (R71). -/
def cmdReadData : Word := 0x00020002#32
/-- `BLOCK_BYTES` (R7). -/
abbrev blockBytes : Nat := 40
/-- `ALIGN`: write strings are padded to a multiple of it (R7, R105). -/
abbrev alignBytes : Nat := 4
/-- `FILL`: the padding byte (R7, R105). -/
def fillByte : Byte := 0xFF#8
/-- `MAX_XFER`: the READ_DATA chunk limit (R7, R123). -/
abbrev maxXfer : Nat := 0x50
/-- A packet payload of this many bytes cannot be encoded (R72, R96). -/
abbrev payloadLimit : Nat := 4294967296

/-! ### Flash opcodes (R80) -/

def opReadId : Byte := 0x9F#8
def opReadUid : Byte := 0x4B#8
def opFastRead : Byte := 0x0B#8
def opWren : Byte := 0x06#8
def opRdsr : Byte := 0x05#8
def opWrdi : Byte := 0x04#8
def opBlockErase : Byte := 0xD8#8
def opPageProgram : Byte := 0x02#8

/-! ### The register of each field, and the default layout -/

/-- The register a field belongs to (R20 to R30). -/
def fieldReg : Field → RegName
  | .spiRst | .rxFifoRst | .txFifoRst | .rxDmaEn | .txDmaEn | .rxThres | .txThres => .control
  | .cpha | .cpol | .slvMode | .lsb | .mosiBiDir | .dataMerge | .dataLen | .addrLen => .transferFormat
  | .rdTranCnt | .dummyCnt | .tokenValue | .wrTranCnt | .tokenEn | .dualQuad | .transMode
  | .addrFmt | .addrEn | .cmdEn | .slvDataOnly => .transferControl
  | .cmd => .command
  | .addr => .address
  | .dataWord => .data
  | .spiActive | .rxNum | .rxEmpty | .rxFull | .txNum | .txEmpty | .txFull => .status
  | .rxFifoOrIntEn | .txFifoUrIntEn | .rxFifoIntEn | .txFifoIntEn | .endIntEn | .slvCmdEn => .interruptEnable
  | .rxFifoOrInt | .txFifoUrInt | .rxFifoInt | .txFifoInt | .endInt | .slvCmdInt => .interruptStatus
  | .sclkDiv | .csht | .cs2sclk => .timing
  | .rxFifoSize | .txFifoSize | .dualSpi | .quadSpi | .directIo | .ahbMem | .eilmMem | .slave => .configuration

/-- The default `FIELD_LAYOUT`: `⟨field, lowest bit, width⟩` (R20 to R30; PRESUMED, the spec's own GK1, log 6). -/
def defaultLayout : List FieldBits :=
  -- Control (R20)
  [⟨.spiRst, 0, 1⟩, ⟨.rxFifoRst, 1, 1⟩, ⟨.txFifoRst, 2, 1⟩, ⟨.rxDmaEn, 3, 1⟩, ⟨.txDmaEn, 4, 1⟩,
   ⟨.rxThres, 8, 8⟩, ⟨.txThres, 16, 8⟩] ++
  -- TransferFormat (R21)
  [⟨.cpha, 0, 1⟩, ⟨.cpol, 1, 1⟩, ⟨.slvMode, 2, 1⟩, ⟨.lsb, 3, 1⟩, ⟨.mosiBiDir, 4, 1⟩, ⟨.dataMerge, 7, 1⟩,
   ⟨.dataLen, 8, 5⟩, ⟨.addrLen, 16, 2⟩] ++
  -- TransferControl (R22)
  [⟨.rdTranCnt, 0, 9⟩, ⟨.dummyCnt, 9, 2⟩, ⟨.tokenValue, 11, 1⟩, ⟨.wrTranCnt, 12, 9⟩, ⟨.tokenEn, 21, 1⟩,
   ⟨.dualQuad, 22, 2⟩, ⟨.transMode, 24, 4⟩, ⟨.addrFmt, 28, 1⟩, ⟨.addrEn, 29, 1⟩, ⟨.cmdEn, 30, 1⟩,
   ⟨.slvDataOnly, 31, 1⟩] ++
  -- Command, Address, Data (R23 to R25)
  [⟨.cmd, 0, 8⟩, ⟨.addr, 0, 32⟩, ⟨.dataWord, 0, 32⟩] ++
  -- Status (R26)
  [⟨.spiActive, 0, 1⟩, ⟨.rxNum, 8, 6⟩, ⟨.rxEmpty, 14, 1⟩, ⟨.rxFull, 15, 1⟩, ⟨.txNum, 16, 6⟩, ⟨.txEmpty, 22, 1⟩,
   ⟨.txFull, 23, 1⟩] ++
  -- InterruptEnable (R27)
  [⟨.rxFifoOrIntEn, 0, 1⟩, ⟨.txFifoUrIntEn, 1, 1⟩, ⟨.rxFifoIntEn, 2, 1⟩, ⟨.txFifoIntEn, 3, 1⟩, ⟨.endIntEn, 4, 1⟩,
   ⟨.slvCmdEn, 5, 1⟩] ++
  -- InterruptStatus (R28)
  [⟨.rxFifoOrInt, 0, 1⟩, ⟨.txFifoUrInt, 1, 1⟩, ⟨.rxFifoInt, 2, 1⟩, ⟨.txFifoInt, 3, 1⟩, ⟨.endInt, 4, 1⟩,
   ⟨.slvCmdInt, 5, 1⟩] ++
  -- Timing (R29)
  [⟨.sclkDiv, 0, 8⟩, ⟨.csht, 8, 4⟩, ⟨.cs2sclk, 12, 2⟩] ++
  -- Configuration (R30)
  [⟨.rxFifoSize, 0, 4⟩, ⟨.txFifoSize, 4, 4⟩, ⟨.dualSpi, 8, 1⟩, ⟨.quadSpi, 9, 1⟩, ⟨.directIo, 11, 1⟩, ⟨.ahbMem, 12, 1⟩,
   ⟨.eilmMem, 13, 1⟩, ⟨.slave, 14, 1⟩]

/-- The "device access" column of R20 to R30: what the device's SPI controller is believed to do with a field. It is
environment behaviour: no operation of the block consults it (R18). -/
inductive DeviceAccess where
  | readWrite
  | readWriteSelfClearing
  | readOnly
  | writeOneToClear
deriving DecidableEq, Repr

/-- The device access of each field (R20 to R30, GK1). -/
def deviceAccess (f : Field) : DeviceAccess :=
  match fieldReg f with
  | .status | .configuration => .readOnly
  | .interruptStatus => .writeOneToClear
  | .control => if f = .spiRst ∨ f = .rxFifoRst ∨ f = .txFifoRst then .readWriteSelfClearing else .readWrite
  | _ => .readWrite

/-- The default `REG_SLOT`: the listing order, Configuration without a slot (R15, decision D3). -/
def defaultSlots : Slots RegName :=
  ⟨.control, .transferFormat, .transferControl, .command, .address, .data, .status, .interruptEnable, .interruptStatus,
    .timing⟩

/-- The default `REG_DEFAULTS` (R87, decision D5). The word of Configuration, which has no slot, is OPEN in the spec:
DESIGN CHOICE 0 (log 8). -/
def defaultRegs : RegDefaults where
  control := 0x00000000#32
  transferFormat := 0x00020780#32
  transferControl := 0x00000000#32
  command := 0x00000000#32
  address := 0x00000000#32
  data := 0x00000000#32
  status := 0x00404000#32
  interruptEnable := 0x00000000#32
  interruptStatus := 0x00000000#32
  timing := 0x00000000#32
  configuration := 0x00000000#32

/-- The default `MODE_CODE` (R75, decision D6; PRESUMED, the spec's own GK2, log 6). -/
def defaultModes : ModeCodes where
  writeOnly := 1
  readOnly := 2
  writeThenRead := 3
  writeDummyRead := 5
  noData := 7

/-- The default configuration, for given values of the three parameters that have no default (decision D31). -/
def defaultConfigWith (timeoutMs vendorId productId : Nat) : Config where
  slots := defaultSlots
  layout := defaultLayout
  defaults := defaultRegs
  modes := defaultModes
  sentinel := 0x00404000#32
  maxPacket := none
  timeoutMs := timeoutMs
  vendorId := vendorId
  productId := productId

/-- The configuration after reset: the defaults, with the parameters that have none left free (log 7). -/
def defaultConfig : Config :=
  defaultConfigWith Config.anyTimeoutMs Config.anyVendorId Config.anyProductId

/-- The code of a mode under `MODE_CODE` (R75). -/
def modeCode (m : ModeCodes) : Mode → Nat
  | .writeOnly => m.writeOnly
  | .readOnly => m.readOnly
  | .writeThenRead => m.writeThenRead
  | .writeDummyRead => m.writeDummyRead
  | .noData => m.noData

/-- `TransMode` read back through `MODE_CODE` (R66). -/
def modeOfCode (m : ModeCodes) (code : Nat) : Option Mode :=
  if code = m.writeOnly then some .writeOnly
  else if code = m.readOnly then some .readOnly
  else if code = m.writeThenRead then some .writeThenRead
  else if code = m.writeDummyRead then some .writeDummyRead
  else if code = m.noData then some .noData
  else none

/-- The default word of a register name (R87). -/
def regDefault (d : RegDefaults) : RegName → Word
  | .control => d.control
  | .transferFormat => d.transferFormat
  | .transferControl => d.transferControl
  | .command => d.command
  | .address => d.address
  | .data => d.data
  | .status => d.status
  | .interruptEnable => d.interruptEnable
  | .interruptStatus => d.interruptStatus
  | .timing => d.timing
  | .configuration => d.configuration

end Sys2Proof.Machine
end

