-- ==== Sys2Proof/Machine/RegBlock.lean ====
section
/-! DEFINITION. The Register Block operations (R85 to R93). -/

namespace Sys2Proof.Machine

/-! ### The ten slots -/

/-- The entry of slot `i`. -/
def slotGet {α : Type} (t : Slots α) (i : Fin 10) : α :=
  match i.val with
  | 0 => t.x0
  | 1 => t.x1
  | 2 => t.x2
  | 3 => t.x3
  | 4 => t.x4
  | 5 => t.x5
  | 6 => t.x6
  | 7 => t.x7
  | 8 => t.x8
  | _ => t.x9

/-- `t` with slot `i` holding `v`. -/
def slotSet {α : Type} (t : Slots α) (i : Fin 10) (v : α) : Slots α :=
  match i.val with
  | 0 => { t with x0 := v }
  | 1 => { t with x1 := v }
  | 2 => { t with x2 := v }
  | 3 => { t with x3 := v }
  | 4 => { t with x4 := v }
  | 5 => { t with x5 := v }
  | 6 => { t with x6 := v }
  | 7 => { t with x7 := v }
  | 8 => { t with x8 := v }
  | _ => { t with x9 := v }

/-- The ten entries, slot 0 first. -/
def slotList {α : Type} (t : Slots α) : List α :=
  [t.x0, t.x1, t.x2, t.x3, t.x4, t.x5, t.x6, t.x7, t.x8, t.x9]

/-- `REG_SLOT(name)`: the first slot the name stands in, or none (R15). -/
def regSlot (c : Config) (r : RegName) : Option (Fin 10) :=
  if c.slots.x0 = r then some 0
  else if c.slots.x1 = r then some 1
  else if c.slots.x2 = r then some 2
  else if c.slots.x3 = r then some 3
  else if c.slots.x4 = r then some 4
  else if c.slots.x5 = r then some 5
  else if c.slots.x6 = r then some 6
  else if c.slots.x7 = r then some 7
  else if c.slots.x8 = r then some 8
  else if c.slots.x9 = r then some 9
  else none

/-! ### Construction and word access (R86, R88, R89) -/

/-- Ten zero words: the Register Block before the first transaction and between requests (log 9, log 10). -/
def zeroBlock : RegBlock := ⟨0, 0, 0, 0, 0, 0, 0, 0, 0, 0⟩

/-- `Defaults()`: every slot at the default word of the register that stands in it (R86). -/
def defaultsBlock (c : Config) : RegBlock :=
  let d := regDefault c.defaults
  ⟨d c.slots.x0, d c.slots.x1, d c.slots.x2, d c.slots.x3, d c.slots.x4, d c.slots.x5, d c.slots.x6, d c.slots.x7,
    d c.slots.x8, d c.slots.x9⟩

/-- `WordGet(i)` (R88). -/
def wordGet (rb : RegBlock) (i : Fin 10) : Word :=
  slotGet rb i

/-- `WordSet(i, v)`: the value is cut to 32 bits (R89). -/
def wordSet (rb : RegBlock) (i : Fin 10) (v : Nat) : RegBlock :=
  slotSet rb i (BitVec.ofNat 32 v)

/-! ### Field access (R90, R91) -/

/-- The row of a field in `FIELD_LAYOUT`. -/
def fieldBits (c : Config) (f : Field) : Option FieldBits :=
  c.layout.find? (fun b => b.field == f)

/-- `mask(w)` as a word (R9). -/
def maskWord (w : Nat) : Word := BitVec.ofNat 32 (2 ^ w - 1)

/-- The field view of one word: `(word >> lo) & mask(w)` (R90). -/
def bitsGet (word : Word) (b : FieldBits) : Nat :=
  ((word >>> b.lo) &&& maskWord b.width).toNat

/-- The field write into one word: the value is masked to the field's width, other bits stay (R91). -/
def bitsSet (word : Word) (b : FieldBits) (v : Nat) : Word :=
  (word &&& ~~~(maskWord b.width <<< b.lo)) ||| ((BitVec.ofNat 32 v &&& maskWord b.width) <<< b.lo)

/-- `FieldGet(Reg, F)` (R90). A field whose register has no slot, or that the layout does not place, reads 0: no rule
reads one (DESIGN CHOICE, log 17). -/
def fieldGet (c : Config) (rb : RegBlock) (f : Field) : Nat :=
  match regSlot c (fieldReg f), fieldBits c f with
  | some i, some b => bitsGet (wordGet rb i) b
  | _, _ => 0

/-- `FieldSet(Reg, F, v)` (R91). A field whose register has no slot, or that the layout does not place, is written nowhere
(DESIGN CHOICE, log 17). -/
def fieldSet (c : Config) (rb : RegBlock) (f : Field) (v : Nat) : RegBlock :=
  match regSlot c (fieldReg f), fieldBits c f with
  | some i, some b => slotSet rb i (bitsSet (wordGet rb i) b v)
  | _, _ => rb

/-! ### Serialization (R92, R93) -/

/-- `Serialize(RB)`: 40 bytes, each word little-endian, slot 0 first (R92). -/
def serialize (rb : RegBlock) : List Byte :=
  le32 rb.x0 ++ le32 rb.x1 ++ le32 rb.x2 ++ le32 rb.x3 ++ le32 rb.x4 ++ le32 rb.x5 ++ le32 rb.x6 ++ le32 rb.x7 ++
    le32 rb.x8 ++ le32 rb.x9

/-- The ten words of a 40-byte string. -/
def blockOfBytes (s : List Byte) : RegBlock :=
  ⟨fromLe32 (slice s 0 4), fromLe32 (slice s 4 8), fromLe32 (slice s 8 12), fromLe32 (slice s 12 16),
    fromLe32 (slice s 16 20), fromLe32 (slice s 20 24), fromLe32 (slice s 24 28), fromLe32 (slice s 28 32),
    fromLe32 (slice s 32 36), fromLe32 (slice s 36 40)⟩

/-- `Deserialize(s)`: fails when the string is not 40 bytes (R93). -/
def deserialize (s : List Byte) : Except Err RegBlock :=
  if s.length ≠ blockBytes then .error (.registerBlockLength s.length) else .ok (blockOfBytes s)

/-- `RBr[REG_SLOT(Status)]`, the whole Status word of a block (R114). Where the slot map gives Status no slot, which R15
forbids, it reads 0 (DESIGN CHOICE, log 17). -/
def statusWord (c : Config) (rb : RegBlock) : Word :=
  match regSlot c .status with
  | some i => wordGet rb i
  | none => 0

end Sys2Proof.Machine
end

