-- ==== Sys2Proof/Syntax.lean ====
section
/-! DEFINITION. Every instruction of spec/opcode_table.json, and the encoded objects they are read from. -/

namespace Sys2Proof

/-- The instructions, one constructor per row of the opcode table: eight requests (R77), two session actions (R78), three
wire commands (R71) and eight flash command frames (R80). Addresses, lengths and counts are naturals (R8, R79). -/
inductive Instr where
  -- requests
  | reset
  | readId
  | readUid
  | readData (addr length : Nat)
  | erase64kb (addr : Nat)
  | programPage (addr : Nat) (payload : List Byte)
  | program (addr : Nat) (payload : List Byte) (pageSize : Nat)
  | transact (wbytes : List Byte) (rdLen dummy : Nat)
  -- session actions
  | openSession
  | closeSession
  -- wire commands
  | setRegister (payload : List Byte)
  | readRegister
  | readDataPkt
  -- flash command frames
  | rdid
  | rduid
  | fastRead (addr count : Nat)
  | wren
  | rdsr
  | wrdi
  | blockErase64kb (addr : Nat)
  | pageProgram (addr : Nat) (payload : List Byte)
deriving DecidableEq, Repr

/-- A request record: the 3-bit operation code and all operands of R36 and R79 (unused ones are ignored). -/
structure Request where
  op : BitVec 3
  addr : Nat
  length : Nat
  rdLen : Nat
  dummy : Nat
  pageSize : Nat
  wbytes : List Byte
  payload : List Byte
deriving DecidableEq, Repr

/-- An `spi_frame`: the TRANSACT triple of R81. -/
structure Frame where
  wbytes : List Byte
  rdLen : Nat
  dummy : Nat
deriving DecidableEq, Repr

/-- An encoded instruction, in the format of R69 it stands in: a request record, the 1-bit session signal (R78), the bytes
of a packet (R70), or an `spi_frame` (R81). -/
inductive Encoded where
  | request (r : Request)
  | session (signal : BitVec 1)
  | packet (raw : List Byte)
  | frame (f : Frame)
deriving DecidableEq, Repr

end Sys2Proof
end

