-- ==== Sys2Proof/WellFormed.lean ====
section
/-! DEFINITION. When an instruction's operands and a configuration are well-formed. -/

namespace Sys2Proof

open Sys2Proof.Machine

/-- The operands the block itself builds an instruction with. Requests take any natural and any byte string (R79, decision
D2); a SET_REGISTER payload is a 40-byte block and a padded write string (R101), below `2^32` bytes (R96); a flash address
is 24 bits (R45); a read chunk is 1 to 0x50 bytes (R80). -/
def Instr.wellFormed : Instr → Bool
  | .reset | .readId | .readUid | .readData _ _ | .erase64kb _ | .programPage _ _ | .program _ _ _ | .transact _ _ _ => true
  | .openSession | .closeSession => true
  | .setRegister p => decide (blockBytes ≤ p.length) && decide (p.length % alignBytes = 0) && decide (p.length < payloadLimit)
  | .readRegister | .readDataPkt => true
  | .rdid | .rduid | .wren | .rdsr | .wrdi => true
  | .fastRead a n => decide (a < flashSize) && decide (1 ≤ n) && decide (n ≤ maxXfer)
  | .blockErase64kb a => decide (a < flashSize)
  | .pageProgram a _ => decide (a < flashSize)

/-- Two rows of a layout do not claim a bit of one register twice. -/
def FieldBits.disjoint (a b : FieldBits) : Bool :=
  decide (a.field ≠ b.field) &&
    (decide (fieldReg a.field ≠ fieldReg b.field) || decide (a.lo + a.width ≤ b.lo) || decide (b.lo + b.width ≤ a.lo))

/-- No two rows of a layout overlap. -/
def disjointRows : List FieldBits → Bool
  | [] => true
  | b :: rest => rest.all (FieldBits.disjoint b) && disjointRows rest

/-- The fields the block writes (R31). -/
def usedFields : List Field :=
  [.spiRst, .rxFifoRst, .txFifoRst, .transMode, .wrTranCnt, .rdTranCnt, .dummyCnt]

/-- The slot map is injective and maps Control, TransferControl and Status (R15). -/
def Config.slotsOk (c : Config) : Bool :=
  decide (slotList c.slots).Nodup &&
    [RegName.control, .transferControl, .status].all (fun r => (regSlot c r).isSome)

/-- Every row lies inside its 32-bit register, no two rows overlap, and every field the block writes is placed (R31, GK1). That
unused fields must be disjoint too is the model's choice (DESIGN CHOICE, log 31). -/
def Config.layoutOk (c : Config) : Bool :=
  c.layout.all (fun b => decide (1 ≤ b.width) && decide (b.lo + b.width ≤ 32)) && disjointRows c.layout &&
    usedFields.all (fun f => (fieldBits c f).isSome)

/-- The five mode codes are distinct (R75, the spec's only requirement on them) and fit the field they are written to, which
the spec does not ask (DESIGN CHOICE, log 31). -/
def Config.modesOk (c : Config) : Bool :=
  let codes := [c.modes.writeOnly, c.modes.readOnly, c.modes.writeThenRead, c.modes.writeDummyRead, c.modes.noData]
  decide codes.Nodup &&
    match fieldBits c .transMode with
    | some b => codes.all (fun n => decide (n < 2 ^ b.width))
    | none => false

/-- The OPEN parameters are as R15, R31, GK1 and R75 ask, and as log 31 asks beside them. -/
def Config.wellFormed (c : Config) : Bool :=
  c.slotsOk && c.layoutOk && c.modesOk

end Sys2Proof
end

