-- ==== Sys2Proof/Decode.lean ====
section
/-! DEFINITION. Decoding the four encoded formats of R69 into instructions, the encoder, and the opcode-table view. -/

namespace Sys2Proof

open Sys2Proof.Machine

/-- Why an encoding is no instruction. -/
inductive DecodeError where
  /-- A packet that the codec rejects (R97). -/
  | badPacket (e : Err)
  /-- A command word other than the three of R71. -/
  | unknownCommand (c : Word)
  /-- A READ_REGISTER or READ_DATA request with a payload: both are empty (R71, decision D9). -/
  | unexpectedPayload (len : Nat)
  /-- A frame that is none of the eight rows of R80: it has no instruction of its own, only TRANSACT's meaning. -/
  | unknownFrame
deriving DecidableEq, Repr

/-- The request of each value of the 3-bit `op` (R77): every value is an operation, unused operands are ignored (R79). -/
def decodeRequest (r : Request) : Instr :=
  match r.op.toNat with
  | 0 => .reset
  | 1 => .readId
  | 2 => .readUid
  | 3 => .readData r.addr r.length
  | 4 => .erase64kb r.addr
  | 5 => .programPage r.addr r.payload
  | 6 => .program r.addr r.payload r.pageSize
  | _ => .transact r.wbytes r.rdLen r.dummy

/-- The session signal: 0 is Open, 1 is Close (R78). -/
def decodeSession (signal : BitVec 1) : Instr :=
  if signal = 0#1 then .openSession else .closeSession

/-- The wire command of a packet (R71, R97). -/
def decodeWire (raw : List Byte) : Except DecodeError Instr :=
  match decodePacket raw with
  | .error e => .error (.badPacket e)
  | .ok (command, payload) =>
    if command = cmdSetRegister then .ok (.setRegister payload)
    else if command = cmdReadRegister then
      if payload = [] then .ok .readRegister else .error (.unexpectedPayload payload.length)
    else if command = cmdReadData then
      if payload = [] then .ok .readDataPkt else .error (.unexpectedPayload payload.length)
    else .error (.unknownCommand command)

/-- A frame without address: the opcode byte alone, with the counts of its row of R80. -/
def decodeBareFrame (op : Byte) (rdLen dummy : Nat) : Except DecodeError Instr :=
  if op = opReadId ∧ rdLen = 3 ∧ dummy = 0 then .ok .rdid
  else if op = opReadUid ∧ rdLen = 16 ∧ dummy = 4 then .ok .rduid
  else if op = opWren ∧ rdLen = 0 ∧ dummy = 0 then .ok .wren
  else if op = opRdsr ∧ rdLen = 1 ∧ dummy = 0 then .ok .rdsr
  else if op = opWrdi ∧ rdLen = 0 ∧ dummy = 0 then .ok .wrdi
  else .error .unknownFrame

/-- A frame with a 3-byte address and data after it (R80). -/
def decodeAddrFrame (op : Byte) (addr : Nat) (rest : List Byte) (rdLen dummy : Nat) : Except DecodeError Instr :=
  if op = opFastRead ∧ rest = [] ∧ dummy = 1 then .ok (.fastRead addr rdLen)
  else if op = opBlockErase ∧ rest = [] ∧ rdLen = 0 ∧ dummy = 0 then .ok (.blockErase64kb addr)
  else if op = opPageProgram ∧ rdLen = 0 ∧ dummy = 0 then .ok (.pageProgram addr rest)
  else .error .unknownFrame

/-- The flash command of a frame (R80, R81). A TRANSACT request may carry any frame: one that is no row of R80 is rejected
here and runs as a plain transaction (R82 item 4, log 26). -/
def decodeFrame (f : Frame) : Except DecodeError Instr :=
  match f.wbytes with
  | [op] => decodeBareFrame op f.rdLen f.dummy
  | op :: b2 :: b1 :: b0 :: rest => decodeAddrFrame op (fromBe24 b2 b1 b0) rest f.rdLen f.dummy
  | _ => .error .unknownFrame

/-- The instruction an encoded object stands for, or why it stands for none. -/
def decode : Encoded → Except DecodeError Instr
  | .request r => .ok (decodeRequest r)
  | .session b => .ok (decodeSession b)
  | .packet raw => decodeWire raw
  | .frame f => decodeFrame f

/-! ### The encoder -/

/-- A request record with every operand zero or empty (log 13). -/
def bareRequest (op : BitVec 3) : Request :=
  { op := op, addr := 0, length := 0, rdLen := 0, dummy := 0, pageSize := 0, wbytes := [], payload := [] }

/-- The encoding of an instruction: its `op` and operands (R77, R79), its session signal (R78), its packet (R71, R95) or its
frame (R80). -/
def encode : Instr → Encoded
  | .reset => .request (bareRequest 0)
  | .readId => .request (bareRequest 1)
  | .readUid => .request (bareRequest 2)
  | .readData a n => .request { bareRequest 3 with addr := a, length := n }
  | .erase64kb a => .request { bareRequest 4 with addr := a }
  | .programPage a p => .request { bareRequest 5 with addr := a, payload := p }
  | .program a p n => .request { bareRequest 6 with addr := a, payload := p, pageSize := n }
  | .transact w r d => .request { bareRequest 7 with wbytes := w, rdLen := r, dummy := d }
  | .openSession => .session 0
  | .closeSession => .session 1
  | .setRegister p => .packet (encodePacket cmdSetRegister p)
  | .readRegister => .packet (encodePacket cmdReadRegister [])
  | .readDataPkt => .packet (encodePacket cmdReadData [])
  | .rdid => .frame ⟨[opReadId], 3, 0⟩
  | .rduid => .frame ⟨[opReadUid], 16, 4⟩
  | .fastRead a n => .frame ⟨opFastRead :: be24 a, n, 1⟩
  | .wren => .frame ⟨[opWren], 0, 0⟩
  | .rdsr => .frame ⟨[opRdsr], 1, 0⟩
  | .wrdi => .frame ⟨[opWrdi], 0, 0⟩
  | .blockErase64kb a => .frame ⟨opBlockErase :: be24 a, 0, 0⟩
  | .pageProgram a p => .frame ⟨opPageProgram :: (be24 a ++ p), 0, 0⟩

/-! ### The opcode table's numbering -/

/-- The frame whose opcode byte is `op`, with the fixed counts of its row of R80 and zero for its operands: zero address bytes,
no data, and for FAST_READ, whose row leaves the read count to the chunk, the count 0, which is outside its 1..0x50 (DESIGN
CHOICE, log 14). Only the table view uses it. -/
def frameOfOpcode (op : Byte) : Frame :=
  if op = opReadId then ⟨[op], 3, 0⟩
  else if op = opReadUid then ⟨[op], 16, 4⟩
  else if op = opFastRead then ⟨[op, 0, 0, 0], 0, 1⟩
  else if op = opRdsr then ⟨[op], 1, 0⟩
  else if op = opBlockErase ∨ op = opPageProgram then ⟨[op, 0, 0, 0], 0, 0⟩
  else ⟨[op], 0, 0⟩

/-- The bytes of R80 that open a flash command frame. -/
def flashOpcodes : List Byte :=
  [opReadId, opReadUid, opFastRead, opWren, opRdsr, opWrdi, opBlockErase, opPageProgram]

/-- The encoded object whose table bits are `w`. The formats of R69 are told apart by where an object stands, not by its
bits, and the table gives requests, session actions and frames words that collide (0 is RESET and OPEN, 4 is ERASE_64KB and
WRDI, ...). A byte of 8 or more that is a flash opcode is read as that frame; any other byte is read as a request word,
whose `op` is its three low bits (R77); one bit alone is a session signal, three bits alone an `op` (DESIGN CHOICE,
log 14). -/
def tableEncoded (nbits w : Nat) : Option Encoded :=
  if nbits = 1 then some (.session (BitVec.ofNat 1 w))
  else if nbits = 3 then some (.request (bareRequest (BitVec.ofNat 3 w)))
  else if nbits = 8 then
    if 8 ≤ w ∧ BitVec.ofNat 8 w ∈ flashOpcodes then some (.frame (frameOfOpcode (BitVec.ofNat 8 w)))
    else some (.request (bareRequest (BitVec.ofNat 3 w)))
  else if nbits = 32 then some (.packet (le32 (BitVec.ofNat 32 w) ++ [0, 0, 0, 0]))
  else none

/-- The instruction the decoder reads from a word of spec/opcode_table.json. -/
def decodeTableWord (nbits w : Nat) : Option Instr :=
  match tableEncoded nbits w with
  | none => none
  | some e =>
    match decode e with
    | .ok i => some i
    | .error _ => none

end Sys2Proof
end

