-- ==== Sys2Proof/Machine/State.lean ====
section
/-! DEFINITION. The state: the block's own state (10_state.md R43), the OPEN parameters, and the model's two ports with the
environment behind the transport port. -/

namespace Sys2Proof.Machine

/-! ### The block's own state -/

/-- The transaction descriptor `TD` (R35). A counter that the mode does not write is `none`: its field keeps the default
(R107, R108). -/
structure Descriptor where
  wrLen : Nat
  rdLen : Nat
  dummy : Nat
  padding : Nat
  mode : Mode
  wrCnt : Option Nat
  rdCnt : Option Nat
  dmCnt : Option Nat
deriving DecidableEq, Repr

/-- The descriptor before the first transaction and between requests (unspecified in R43; DESIGN CHOICE, log 9). -/
def Descriptor.blank : Descriptor :=
  { wrLen := 0, rdLen := 0, dummy := 0, padding := 0, mode := .noData, wrCnt := none, rdCnt := none, dmCnt := none }

/-- `SCOPE`: where the write-enable scope stands (R38, R124). -/
inductive Scope where
  | closed
  | body
  | polling
  | closing
deriving DecidableEq, Repr

/-- `SESSION`: whether the block holds the transport handle (R40). -/
inductive Session where
  | closed
  | opened
deriving DecidableEq, Repr

/-- Where the pseudocode goes on after a `SendPacket` line (R99). -/
inductive Line where
  /-- RESET's `return []` (R120). -/
  | returnEmpty
  /-- TRANSACT's `data <- []`, then `SendPacket(CMD_READ_DATA, [])` (R113). -/
  | askData
  /-- TRANSACT's `data <- []`, then `SendPacket(CMD_READ_REGISTER, [])` (R114). -/
  | askBlock
  /-- `RecvPacket(n)` of the READ_DATA exchange (R102). -/
  | recvData
  /-- `RecvPacket(40)` of the READ_REGISTER exchange (R103). -/
  | recvBlock
deriving DecidableEq, Repr

/-- `SEQ`, the sequencer position (R32). After a step the sequencer stands right behind that step's event: `start`, `wrote`,
`gotData` or `gotBlock`, with the pure computation that follows still to come (R33); behind an emission it is `idle`. The
next step passes on to a line whose event it executes: `frame`, `packet`, `recvData`, `recvBlock` or `emit`. Where a line
stands in its operation is said by REQ, SCOPE, ACC and K. -/
inductive Seq where
  /-- Waiting for a request. -/
  | idle
  /-- A request has been accepted: `start(op)` (R32). -/
  | start
  /-- Behind the UsbWrite of `len` bytes that the transport answered with `a`; the check of R99 comes next, then `next`. -/
  | wrote (len : Nat) (a : WriteAnswer) (next : Line)
  /-- Behind the UsbRead of the READ_DATA exchange, which was answered with `a` (R102, R113). -/
  | gotData (a : ReadAnswer)
  /-- Behind the UsbRead of the READ_REGISTER exchange, which was answered with `a` (R103, R114). -/
  | gotBlock (a : ReadAnswer)
  /-- At a line `TRANSACT(wbytes, rd_len, dummy)`: next is its SET_REGISTER write (R104). -/
  | frame (f : Frame)
  /-- At a line `SendPacket(...)`: next is the write of this encoded packet (R99). -/
  | packet (raw : List Byte)
  /-- At `RecvPacket(n)` of the READ_DATA exchange (R102, R113). -/
  | recvData
  /-- At `RecvPacket(40)` of the READ_REGISTER exchange (R103, R114). -/
  | recvBlock
  /-- The operation has ended with this value or error: next is its emission (R33, R134 item 4). -/
  | emit (r : Result)
deriving DecidableEq, Repr

/-! ### The request port -/

/-- What the outside presents on the request port at one step boundary (R78, log 1). -/
inductive PortInput where
  | nothing
  | request (r : Request)
  | session (signal : BitVec 1)
deriving DecidableEq, Repr

/-! ### The environment behind the transport port -/

/-- The arbitrary environment (R3): answers already fixed, in order, for each kind of call, and when a list is used up the
free values of Config, one for each call drawn (log 3). -/
structure Oracle where
  writes : List WriteAnswer
  reads : List ReadAnswer
  opens : List OpenAnswer
  drawn : Nat
deriving DecidableEq, Repr

/-- The reference flash's array: the listed bytes by address; an unlisted byte is erased and reads 0xFF (log 19). -/
structure Memory where
  cells : List Host.Cell
deriving DecidableEq, Repr

/-- The reference flash `FL` (R68). -/
structure Flash where
  mem : Memory
  wel : Bool
  busy : Nat
deriving DecidableEq, Repr

/-- The answer the reference bridge owes to the next read (R67). It owes at most one, and keeps it when the session closes
and opens again; R67 does not say so (DESIGN CHOICE, log 30). -/
inductive OwedAnswer where
  | nothing
  | data
  | block
deriving DecidableEq, Repr

/-- The reference environment: bridge image `B`, read buffer `RDBUF`, the owed answer, and the flash (R65). -/
structure RefEnv where
  image : RegBlock
  rdbuf : List Byte
  owed : OwedAnswer
  flash : Flash
deriving DecidableEq, Repr

/-- Which environment answers the transport calls. -/
inductive EnvKind where
  /-- The arbitrary oracle of R3. -/
  | oracle
  /-- The reference environment of R65 to R68, one instance of it. -/
  | reference
deriving DecidableEq, Repr

/-- The environment beyond the transport port (R3, R41). -/
structure Env where
  kind : EnvKind
  oracle : Oracle
  ref : RefEnv
deriving DecidableEq, Repr

/-- One transport call of R141 with its answer. -/
inductive Event where
  | opened (vendorId productId : Nat) (a : OpenAnswer)
  | closed
  | wrote (raw : List Byte) (timeoutMs : Nat) (a : WriteAnswer)
  | readUpTo (max : Nat) (timeoutMs : Nat) (a : ReadAnswer)
deriving DecidableEq, Repr

/-! ### The state -/

/-- Everything the spec gives the machine, and the model's own fields `port`, `env` and `events`. -/
structure State where
  /-- The OPEN parameters (R7). -/
  cfg : Config
  /-- `SEQ` (R32). -/
  seq : Seq
  /-- `REQ` (R36). -/
  req : Option Request
  /-- `TD` (R35). -/
  td : Descriptor
  /-- `RB` (R14). -/
  rb : RegBlock
  /-- `data` of the running TRANSACT (R104). -/
  data : List Byte
  /-- `ACC` of READ_DATA (R37). -/
  acc : List Byte
  /-- `K` of PROGRAM (R37). -/
  k : Nat
  /-- `SCOPE` (R38). -/
  scope : Scope
  /-- `PENDING_ERR` (R38). -/
  pendingErr : Option Err
  /-- `POLL_BYTE` (R38). -/
  pollByte : Byte
  /-- `RESULT` (R39). -/
  result : Option Result
  /-- `SESSION` (R40). -/
  session : Session
  /-- What is presented on the request port at the coming step boundaries (the model's own, log 1). -/
  port : List PortInput
  /-- The environment (the model's own, log 3). -/
  env : Env
  /-- The transport calls made, newest first (the model's own, log 23). -/
  events : List Event
deriving DecidableEq, Repr

/-- Why a step can stop with a fault: never. The block reports each of its errors as a RESULT and goes on (R134, R135), so
no constructor is needed; safe (log 27). -/
inductive Fault where
deriving DecidableEq, Repr

/-- Why a step can be refused. -/
inductive Refusal where
  /-- Raised by an arm of `exec` whose instruction has no meaning yet; safe. No arm answers it in this model. -/
  | notModelled (mnemonic : String)
  /-- Raised by `step` when the sequencer stands before a packet that is no wire command; safe. The block never builds
  such a packet (R82 item 1). -/
  | undecodable (why : DecodeError)
deriving DecidableEq, Repr

/-! ### Reset -/

/-- An erased flash array: nothing listed. -/
def Memory.erased : Memory := ⟨[]⟩

/-- The reference environment at the vectors' start (R65, R68, 95_test_vectors.md; log 19). -/
def RefEnv.initial : RefEnv where
  image := zeroBlock
  rdbuf := []
  owed := .nothing
  flash := { mem := Memory.erased, wel := false, busy := 0 }

/-- The arbitrary environment with nothing scripted (log 3). -/
def Oracle.initial : Oracle where
  writes := []
  reads := []
  opens := []
  drawn := 0

/-- The environment after reset: the arbitrary one (R3). -/
def Env.initial : Env where
  kind := .oracle
  oracle := Oracle.initial
  ref := RefEnv.initial

/-- The machine right after power-on reset (R43, R147). What R43 calls unspecified holds a value named in log 9; no rule
reads it before it is written. -/
def State.reset : State where
  cfg := defaultConfig
  seq := .idle
  req := none
  td := Descriptor.blank
  rb := zeroBlock
  data := []
  acc := []
  k := 0
  scope := .closed
  pendingErr := none
  pollByte := 0#8
  result := none
  session := .closed
  port := []
  env := Env.initial
  events := []

end Sys2Proof.Machine
end

