-- ==== Sys2Proof/Machine/Flags.lean ====
section
/-! DEFINITION. The three conditions the block tests (R34). It has no status flags of its own. -/

namespace Sys2Proof.Machine

/-- Condition 1: the read-back Status word equals `STATUS_SENTINEL` (R34, R114). -/
def statusOk (c : Config) (word : Word) : Bool := word = c.sentinel

/-- Condition 2: bit 0 (WIP) of the RDSR byte is 0; bits 1 to 7 are ignored (R34, R126). -/
def wipClear (b : Byte) : Bool := b.getLsbD 0 = false

/-- Condition 3: the program chunk is entirely 0xFF (R34, R130). -/
def chunkBlank (chunk : List Byte) : Bool := chunk.all (fun b => b == 0xFF#8)

end Sys2Proof.Machine
end

