-- ==== Sys2Proof/Machine/Operands.lean ====
section
/-! DEFINITION. Operand assembly: padding, transfer mode and counters (R105 to R111), the frames of the Flash Controller
(R80), the chunks of READ_DATA and PROGRAM, and the argument checks (R46, R96, R130). -/

namespace Sys2Proof.Machine

/-! ### The transaction descriptor and the Register Block it is written into -/

/-- `padding = (4 - wr_len mod 4) mod 4` (R105). -/
def paddingOf (wrLen : Nat) : Nat :=
  (alignBytes - wrLen % alignBytes) % alignBytes

/-- The padded write string `Wp = W ‖ 0xFF^padding` (R105). -/
def padded (w : List Byte) : List Byte :=
  w ++ List.replicate (paddingOf w.length) fillByte

/-- The transfer mode and the counters of a transaction (R107 to R110). -/
def describe (wrLen rdLen dummy : Nat) : Descriptor :=
  let base : Descriptor :=
    { Descriptor.blank with wrLen := wrLen, rdLen := rdLen, dummy := dummy, padding := paddingOf wrLen }
  if rdLen = 0 then
    { base with mode := .writeOnly, wrCnt := some (wrLen - 1) }
  else if wrLen = 0 then
    { base with mode := .readOnly, rdCnt := some (rdLen - 1) }
  else if dummy = 0 ∨ dummy ≤ paddingOf wrLen then
    { base with mode := .writeThenRead, rdCnt := some (rdLen - 1), wrCnt := some (wrLen - 1 + dummy) }
  else
    { base with
      mode := .writeDummyRead
      rdCnt := some (rdLen - 1)
      dmCnt := some (dummy - 1 - paddingOf wrLen)
      wrCnt := some (wrLen - 1 + paddingOf wrLen) }

/-- Write a counter into its field, if the mode writes it. -/
def setCount (c : Config) (f : Field) (v : Option Nat) (rb : RegBlock) : RegBlock :=
  match v with
  | some n => fieldSet c rb f n
  | none => rb

/-- The fresh Register Block of a transaction: the defaults, the counters in pseudocode order, then the mode (R104, R111). -/
def transactBlock (c : Config) (d : Descriptor) : RegBlock :=
  let b0 := defaultsBlock c
  let b1 := setCount c .rdTranCnt d.rdCnt b0
  let b2 := setCount c .dummyCnt d.dmCnt b1
  let b3 := setCount c .wrTranCnt d.wrCnt b2
  fieldSet c b3 .transMode (modeCode c.modes d.mode)

/-- The Register Block of RESET: the three reset bits and the NO_DATA mode over the defaults (R120). -/
def resetBlock (c : Config) : RegBlock :=
  let b1 := fieldSet c (defaultsBlock c) .spiRst 1
  let b2 := fieldSet c b1 .rxFifoRst 1
  let b3 := fieldSet c b2 .txFifoRst 1
  fieldSet c b3 .transMode (modeCode c.modes .noData)

/-- The transaction has nothing to write and nothing to read (R106). -/
def frameEmpty (f : Frame) : Bool := f.wbytes.isEmpty && f.rdLen == 0

/-- `40 + len(Wp) >= 2^32`: the packet cannot be encoded (R96, R104). -/
def frameTooLong (f : Frame) : Bool :=
  decide (payloadLimit ≤ blockBytes + (f.wbytes.length + paddingOf f.wbytes.length))

/-- The number of bytes a transaction expects back: `RdTranCnt + 1`, read from the field after the write (R76, R113). -/
abbrev expectedBytes (c : Config) (rb : RegBlock) : Nat :=
  fieldGet c rb .rdTranCnt + 1

/-! ### The frames of the Flash Controller (R80, R84) -/

def rdidFrame : Frame := ⟨[opReadId], 3, 0⟩
def rduidFrame : Frame := ⟨[opReadUid], 16, 4⟩
def wrenFrame : Frame := ⟨[opWren], 0, 0⟩
def rdsrFrame : Frame := ⟨[opRdsr], 1, 0⟩
def wrdiFrame : Frame := ⟨[opWrdi], 0, 0⟩
def fastReadFrame (addr count : Nat) : Frame := ⟨opFastRead :: be24 addr, count, 1⟩
def blockEraseFrame (addr : Nat) : Frame := ⟨opBlockErase :: be24 addr, 0, 0⟩
def pageProgramFrame (addr : Nat) (payload : List Byte) : Frame := ⟨opPageProgram :: (be24 addr ++ payload), 0, 0⟩

/-! ### Argument checks (R46) -/

/-- The flash range `addr .. addr + len - 1` does not fit 24 bits (R46, R123, R130). -/
def rangeBad (addr len : Nat) : Bool :=
  decide (flashSize ≤ addr) || decide (flashSize < addr + len)

/-- The flash address does not fit 24 bits (R46, R128, R129). -/
def addrBad (addr : Nat) : Bool := decide (flashSize ≤ addr)

/-! ### The chunks of PROGRAM (R130) -/

/-- `payload[K·page_size : min((K+1)·page_size, len(payload))]` (R130). -/
def programChunk (payload : List Byte) (pageSize k : Nat) : List Byte :=
  slice payload (k * pageSize) (min ((k + 1) * pageSize) payload.length)

/-- The first chunk index from `k` on whose chunk is not blank, or the index at which the loop of R130 ends. `fuel` bounds
the number of chunks skipped; the payload's length is enough. -/
def skipBlank (payload : List Byte) (pageSize : Nat) : Nat → Nat → Nat
  | 0, k => k
  | fuel + 1, k =>
    if k * pageSize < payload.length ∧ chunkBlank (programChunk payload pageSize k) then
      skipBlank payload pageSize fuel (k + 1)
    else k

end Sys2Proof.Machine
end

