-- ==== Sys2Proof/Machine/Memory.lean ====
section
/-! DEFINITION. The reference flash's array (R68): 2^24 bytes as a list of cells in one canonical form. -/

namespace Sys2Proof.Machine

/-- What an unlisted byte reads as: an erased byte (95_test_vectors.md: "with the flash erased (all 0xFF)"; log 19). -/
def erasedByte : Byte := 0xFF#8

/-- The byte listed for an address, or the erased byte. -/
def lookupCell : List Host.Cell → Nat → Byte
  | [], _ => erasedByte
  | (c, v) :: rest, a => if c = a then v else lookupCell rest a

/-- Put a byte at an address, keeping the addresses rising and listing no erased byte. -/
def insertCell (a : Nat) (b : Byte) : List Host.Cell → List Host.Cell
  | [] => if b = erasedByte then [] else [(a, b)]
  | (c, v) :: rest =>
    if a < c then (if b = erasedByte then (c, v) :: rest else (a, b) :: (c, v) :: rest)
    else if a = c then (if b = erasedByte then rest else (a, b) :: rest)
    else (c, v) :: insertCell a b rest

/-- The address is above every listed one before it, below `2^24`, and its byte is not the erased one. -/
def cellsWf : List Host.Cell → Bool
  | [] => true
  | (c, v) :: rest =>
    decide (c < flashSize) && decide (v ≠ erasedByte) && rest.all (fun d => decide (c < d.1)) && cellsWf rest

/-- The canonical form: addresses strictly rising and below `2^24`, no erased byte listed. -/
def Memory.wf (m : Memory) : Bool := cellsWf m.cells

/-- One byte, the address taken mod `2^24` (R68). -/
def memRead (m : Memory) (a : Nat) : Byte :=
  lookupCell m.cells (a % flashSize)

/-- Write one byte, the address taken mod `2^24` (R68). -/
def memWrite (m : Memory) (a : Nat) (b : Byte) : Memory :=
  ⟨insertCell (a % flashSize) b m.cells⟩

/-- `MemRead(a, n)`: `n` bytes from `a` on (R68). -/
def memReadBytes (m : Memory) (a n : Nat) : List Byte :=
  (List.range n).map (fun i => memRead m (a + i))

/-- First address of the 64 KB block that holds `a`: `a & 0xFF0000` (R68). -/
def eraseBase (a : Nat) : Nat := a / 65536 * 65536

/-- Erase the 64 KB block that holds `a`: its bytes become 0xFF (R68). -/
def memErase64k (m : Memory) (a : Nat) : Memory :=
  ⟨m.cells.filter (fun c => decide (c.1 < eraseBase a) || decide (eraseBase a + 65536 ≤ c.1))⟩

/-- Address of data byte `j` of a page program at `a`: `(a & 0xFFFF00) | ((a + j) & 0xFF)` (R68). -/
def pageAddr (a j : Nat) : Nat := a / 256 * 256 + (a + j) % 256

/-- Program data bytes from index `j` on: each clears bits of the byte it meets (R68). -/
def memProgram (m : Memory) (a : Nat) : Nat → List Byte → Memory
  | _, [] => m
  | j, b :: rest => memProgram (memWrite m (pageAddr a j) (memRead m (pageAddr a j) &&& b)) a (j + 1) rest

end Sys2Proof.Machine
end

