-- ==== Sys2Proof/Machine/Flash.lean ====
section
/-! DEFINITION. The reference flash `FL`: what one chip-select frame does and answers (R68). -/

namespace Sys2Proof.Machine

/-- `JEDEC` (R68). -/
def jedecId : List Byte := [0xEF#8, 0x40#8, 0x18#8]

/-- `UID` (R68). -/
def uniqueId : List Byte :=
  [0xA0#8, 0xA1#8, 0xA2#8, 0xA3#8, 0xA4#8, 0xA5#8, 0xA6#8, 0xA7#8, 0xA8#8, 0xA9#8, 0xAA#8, 0xAB#8, 0xAC#8, 0xAD#8,
    0xAE#8, 0xAF#8]

/-- `BUSY_ERASE` (R68). -/
def busyErase : Nat := 2

/-- `BUSY_PROG` (R68). -/
def busyProg : Nat := 1

/-- The first `r` answer bytes of a constant, then 0xFF (R68). -/
def answerFrom (bytes : List Byte) (r : Nat) : List Byte :=
  (List.range r).map (fun i => bytes.getD i 0xFF#8)

/-- The RDSR byte: `(BUSY > 0 ? 1 : 0) | (WEL << 1)` (R68). -/
def flashStatus (f : Flash) : Byte :=
  (if f.busy > 0 then 1#8 else 0#8) ||| (if f.wel then 2#8 else 0#8)

/-- The address bytes `S[1], S[2], S[3]` of a frame as one address. R68 states no address for a frame that ends before
them: such a byte is free (log 20). -/
def frameAddr (s : List Byte) : Nat :=
  fromBe24 (s.getD 1 (Config.missingFrameByte 1)) (s.getD 2 (Config.missingFrameByte 2))
    (s.getD 3 (Config.missingFrameByte 3))

/-- What an idle flash (`BUSY = 0`) does with a frame other than RDSR: its answer bytes and its next state (R68). -/
def flashCommand (op : Byte) (s : List Byte) (r : Nat) (f : Flash) : List Byte × Flash :=
  let none := List.replicate r 0xFF#8
  if op = opReadId then (answerFrom jedecId r, f)
  else if op = opReadUid ∧ s.length = 5 then (answerFrom uniqueId r, f)
  else if op = opFastRead ∧ 5 ≤ s.length then (memReadBytes f.mem (frameAddr s) r, f)
  else if op = opWren then (none, { f with wel := true })
  else if op = opWrdi then (none, { f with wel := false })
  else if op = opBlockErase ∧ f.wel then
    (none, { mem := memErase64k f.mem (frameAddr s), wel := false, busy := busyErase })
  else if op = opPageProgram ∧ f.wel then
    (none, { mem := memProgram f.mem (frameAddr s) 0 (s.drop 4), wel := false, busy := busyProg })
  else (none, f)

/-- What the flash does with the frame `s` and `r` bytes to read (R68). A frame without any byte names no opcode and is one
of the table's "other" (log 21). -/
def flashFrame (s : List Byte) (r : Nat) (f : Flash) : List Byte × Flash :=
  match s with
  | [] => (List.replicate r 0xFF#8, f)
  | op :: _ =>
    if op = opRdsr then (List.replicate r (flashStatus f), { f with busy := f.busy - 1 })
    else if f.busy > 0 then (List.replicate r 0xFF#8, f)
    else flashCommand op s r f

end Sys2Proof.Machine
end

