-- ==== Sys2Proof/Machine/Reference.lean ====
section
/-! DEFINITION. The reference bridge (R65 to R67): one instance of the environment, used by the spec's vectors. -/

namespace Sys2Proof.Machine

/-- Any of Control.SPIRST, .RXFIFORST, .TXFIFORST is 1 (R66). -/
def resetBitSet (c : Config) (b : RegBlock) : Bool :=
  fieldGet c b .spiRst = 1 || fieldGet c b .rxFifoRst = 1 || fieldGet c b .txFifoRst = 1

/-- The bytes driven to the flash and the number of bytes read, for the mode in the bridge image (R66). `none` where
nothing goes on the bus: NO_DATA, or a code that is no mode (log 20). A write string shorter than the count, which R66 says
the block never sends, is driven as the shorter frame that it is (DESIGN CHOICE, log 20). -/
def bridgeFrame (c : Config) (b : RegBlock) (w : List Byte) : Option (List Byte × Nat) :=
  let wr := w.take (fieldGet c b .wrTranCnt + 1)
  let rd := fieldGet c b .rdTranCnt + 1
  match modeOfCode c.modes (fieldGet c b .transMode) with
  | some .writeOnly => some (wr, 0)
  | some .readOnly => some ([], rd)
  | some .writeThenRead => some (wr, rd)
  | some .writeDummyRead => some (wr ++ List.replicate (fieldGet c b .dummyCnt + 1) 0xFF#8, rd)
  | some .noData => none
  | none => none

/-- SET_REGISTER at the bridge (R66). A payload shorter than a block is ignored (log 20). -/
def bridgeSet (c : Config) (p : List Byte) (r : RefEnv) : RefEnv :=
  if p.length < blockBytes then r
  else
    let b := blockOfBytes (p.take blockBytes)
    if resetBitSet c b then { r with image := b, rdbuf := [] }
    else
      match bridgeFrame c b (p.drop blockBytes) with
      | none => { r with image := b, rdbuf := [] }
      | some (s, n) =>
        { r with image := b, rdbuf := (flashFrame s n r.flash).1, flash := (flashFrame s n r.flash).2 }

/-- A packet written to the reference environment (R65): it is decoded by R97 and handled by its command word; any other
command word is ignored. A packet that R97 rejects is ignored too, which R65 does not say (DESIGN CHOICE, log 20). A request written while an earlier answer is still unread takes that answer's place, since R67 gives both
the same next read (DESIGN CHOICE, log 30). -/
def refWrite (c : Config) (raw : List Byte) (r : RefEnv) : RefEnv :=
  match decodePacket raw with
  | .error _ => r
  | .ok (command, p) =>
    if command = cmdSetRegister then bridgeSet c p r
    else if command = cmdReadData then { r with owed := .data }
    else if command = cmdReadRegister then { r with owed := .block }
    else r

/-- The bridge image with the Status word replaced by the sentinel (R67). -/
def bridgeReadBack (c : Config) (b : RegBlock) : RegBlock :=
  match regSlot c .status with
  | some i => slotSet b i c.sentinel
  | none => b

/-- A read of at most `m` bytes from the reference environment (R67): the owed answer, cut to `m` bytes, or `[]`. -/
def refRead (c : Config) (m : Nat) (r : RefEnv) : List Byte × RefEnv :=
  match r.owed with
  | .data => ((encodePacket cmdReadData r.rdbuf).take m, { r with rdbuf := [], owed := .nothing })
  | .block =>
    ((encodePacket cmdReadRegister (serialize (bridgeReadBack c r.image))).take m, { r with owed := .nothing })
  | .nothing => ([], r)

end Sys2Proof.Machine
end

