-- ==== Sys2Proof/Machine/Transport.lean ====
section
/-! DEFINITION. The transport port: the four calls of R141, and SendPacket and RecvPacket over them (R99, R100). -/

namespace Sys2Proof.Machine

/-! ### The oracle's answers (R3, log 3) -/

/-- The oracle's answer to a write, and the oracle after it. -/
def oracleWrite (o : Oracle) : WriteAnswer × Oracle :=
  match o.writes with
  | a :: rest => (a, { o with writes := rest })
  | [] => (Config.freeWrite o.drawn, { o with drawn := o.drawn + 1 })

/-- The oracle's answer to a read, and the oracle after it. It is not cut to the length asked for (log 4). -/
def oracleRead (o : Oracle) : ReadAnswer × Oracle :=
  match o.reads with
  | a :: rest => (a, { o with reads := rest })
  | [] => (Config.freeRead o.drawn, { o with drawn := o.drawn + 1 })

/-- The oracle's answer to an open, and the oracle after it. -/
def oracleOpen (o : Oracle) : OpenAnswer × Oracle :=
  match o.opens with
  | a :: rest => (a, { o with opens := rest })
  | [] => (Config.freeOpen o.drawn, { o with drawn := o.drawn + 1 })

/-! ### The calls -/

/-- The packet is beyond `MAX_PACKET` (R7, R96). -/
def beyondMaxPacket (c : Config) (len : Nat) : Bool :=
  match c.maxPacket with
  | none => false
  | some m => decide (m < len)

/-- Who answers a bulk write and how: no session, an I/O failure (R99, decision D43); beyond `MAX_PACKET`, a failure of the
transport (R96, log 16); else the environment. Both failures come before the reference environment too, where R65 has no
transport call fail: DEDUCED for a call without a session (log 5), DESIGN CHOICE for one beyond `MAX_PACKET` (log 16). -/
def answerWrite (raw : List Byte) (s : State) : WriteAnswer × Env :=
  if s.session = .closed then (.failed .io, s.env)
  else if beyondMaxPacket s.cfg raw.length then (.failed (Config.oversizeFailure raw.length), s.env)
  else
    match s.env.kind with
    | .oracle => ((oracleWrite s.env.oracle).1, { s.env with oracle := (oracleWrite s.env.oracle).2 })
    | .reference => (.count raw.length, { s.env with ref := refWrite s.cfg raw s.env.ref })

/-- Who answers a bulk read and how: no session, an I/O failure (decision D43), before the reference environment too (log 5);
else the environment. -/
def answerRead (max : Nat) (s : State) : ReadAnswer × Env :=
  if s.session = .closed then (.failed .io, s.env)
  else
    match s.env.kind with
    | .oracle => ((oracleRead s.env.oracle).1, { s.env with oracle := (oracleRead s.env.oracle).2 })
    | .reference =>
      (.bytes (refRead s.cfg max s.env.ref).1, { s.env with ref := (refRead s.cfg max s.env.ref).2 })

/-- Who answers an open and how: in the reference environment no transport call fails (R65). -/
def answerOpen (s : State) : OpenAnswer × Env :=
  match s.env.kind with
  | .oracle => ((oracleOpen s.env.oracle).1, { s.env with oracle := (oracleOpen s.env.oracle).2 })
  | .reference => (.opened, s.env)

/-- `UsbWrite(raw)`: `write(raw, TIMEOUT_MS)` (R11, R141). -/
def usbWrite (raw : List Byte) (s : State) : WriteAnswer × State :=
  ((answerWrite raw s).1,
    { s with
      env := (answerWrite raw s).2
      events := .wrote raw s.cfg.timeoutMs (answerWrite raw s).1 :: s.events })

/-- `UsbRead(max)`: `read(max, TIMEOUT_MS)` (R11, R141). -/
def usbRead (max : Nat) (s : State) : ReadAnswer × State :=
  ((answerRead max s).1,
    { s with
      env := (answerRead max s).2
      events := .readUpTo max s.cfg.timeoutMs (answerRead max s).1 :: s.events })

/-- `open(VENDOR_ID, PRODUCT_ID)` (R141, R150). -/
def usbOpen (s : State) : OpenAnswer × State :=
  ((answerOpen s).1,
    { s with
      env := (answerOpen s).2
      events := .opened s.cfg.vendorId s.cfg.productId (answerOpen s).1 :: s.events })

/-- `close()` (R141, R150): the block holds no handle after it. -/
def usbClose (s : State) : State :=
  { s with session := .closed, events := .closed :: s.events }

/-! ### SendPacket and RecvPacket -/

/-- `SendPacket(command, payload)` up to its UsbWrite (R99): the packet is written, and SEQ stands behind the write with its
answer. The check of the answer belongs to the step that follows (R33). -/
def sendPacket (command : Word) (payload : List Byte) (next : Line) (s : State) : State :=
  let raw := encodePacket command payload
  { (usbWrite raw s).2 with seq := .wrote raw.length (usbWrite raw s).1 next }

/-- The check after a write: the transport's failure first, then the count (R99, R136). Any other count is a short write,
a greater one too (decision D21). -/
def checkWrite (len : Nat) : WriteAnswer → Option Err
  | .failed k => some (.transportError k)
  | .count n => if n ≠ len then some (.shortWrite len n) else none

/-- `RecvPacket(n)` up to its UsbRead (R100): at most `8 + n` bytes are read, and SEQ stands behind the read with its answer.
The decoding of the answer belongs to the step that follows (R33). -/
def recvPacket (n : Nat) (behind : ReadAnswer → Seq) (s : State) : State :=
  { (usbRead (hdrBytes + n) s).2 with seq := behind (usbRead (hdrBytes + n) s).1 }

/-- The check after a read: the transport's failure, else the codec (R100). The answer's command word is not compared
(decision D11). -/
def checkRead : ReadAnswer → Except Err (Word × List Byte)
  | .failed k => .error (.transportError k)
  | .bytes raw => decodePacket raw

end Sys2Proof.Machine
end

