-- ==== Sys2Proof/Machine/Ops.lean ====
section
/-! DEFINITION. The sequencer's shared operations: error entry (R134), the write-enable scope (R124), the loops of READ_DATA
and PROGRAM (R123, R130), TRANSACT (R104), the computation behind each transport call, accepting a request and emitting its
result (R33). -/

namespace Sys2Proof.Machine

/-- The operation being executed, as the instruction its latched request stands for (R36). -/
def currentOp (s : State) : Option Instr := s.req.map decodeRequest

/-! ### Error entry -/

/-- `raise e` (R134), the block's one way to take an error. Outside the write-enable scope the operation ends with `e`. In
the body the scope keeps it and its exit starts. In the exit it is kept only if the body raised none, and the exit ends at
once; either way the pending error ends the operation (R124, R136, decision D17). Bytes gathered so far are dropped when
the result is emitted (R134 item 3). The emission is the event of the same step (R33, R134 item 4). -/
def raiseErr (e : Err) (s : State) : State :=
  match s.scope with
  | .closed => { s with seq := .emit (.err e) }
  | .body => { s with scope := .polling, pendingErr := some e, seq := .frame rdsrFrame }
  | .polling | .closing =>
    { s with scope := .closed, pendingErr := none, seq := .emit (.err (s.pendingErr.getD e)) }

/-- Go to the line `TRANSACT(f)`; the length check of R104 comes before any packet of it (R96). -/
def issueFrame (f : Frame) (s : State) : State :=
  if frameTooLong f then raiseErr (.invalidArgument (.wbytes f.wbytes)) s else { s with seq := .frame f }

/-- `return v` of the whole operation: next is its emission (R33). -/
def finishOp (v : List Byte) (s : State) : State := { s with seq := .emit (.ok v) }

/-! ### READ_DATA's loop (R123) -/

/-- The head of READ_DATA's loop: the next chunk, or the final length check and the result. -/
def readLoop (addr length : Nat) (s : State) : State :=
  if s.acc.length < length then
    { s with seq := .frame (fastReadFrame (addr + s.acc.length) (min maxXfer (length - s.acc.length))) }
  else if s.acc.length ≠ length then raiseErr (.lengthAccounting length s.acc.length) s
  else finishOp s.acc s

/-! ### The write-enable scope (R124) and the operations around it -/

/-- The scope's entry: the WREN transaction, with SCOPE still CLOSED (R125). -/
def enterScope (s : State) : State := { s with seq := .frame wrenFrame }

/-- PROGRAM_PAGE's head (R129): the address check, then the scope. -/
def beginPage (addr : Nat) (s : State) : State :=
  if addrBad addr then raiseErr (.invalidArgument (.addr addr)) s else enterScope s

/-- The head of PROGRAM's loop at chunk index `k` (R130): skip blank chunks, then program one or end. -/
def programLoop (addr : Nat) (payload : List Byte) (pageSize k : Nat) (s : State) : State :=
  let k' := skipBlank payload pageSize payload.length k
  if k' * pageSize < payload.length then beginPage (addr + k' * pageSize) { s with k := k' }
  else finishOp [] { s with k := k' }

/-- The transaction wrapped by the scope: the body of the running operation (R128, R129, R130). -/
def scopeBody (s : State) : Frame :=
  match currentOp s with
  | some (.erase64kb a) => blockEraseFrame a
  | some (.programPage a p) => pageProgramFrame a p
  | some (.program a p n) => pageProgramFrame (a + s.k * n) (programChunk p n s.k)
  | _ => rdsrFrame

/-- After WREN: `SCOPE <- BODY; PENDING_ERR <- none`, then the body (R124). -/
def enterBody (s : State) : State :=
  issueFrame (scopeBody s) { s with scope := .body, pendingErr := none }

/-- After the body: `SCOPE <- POLLING`, then the first poll (R126). -/
def startPoll (s : State) : State := { s with scope := .polling, seq := .frame rdsrFrame }

/-- After a poll: `POLL_BYTE <- r[0]`; once its WIP bit is 0, `SCOPE <- CLOSING` and WRDI, else poll again, without bound
(R126, R127, R137). A poll that returned no byte cannot be (R113); it would poll again (log 18). -/
def pollAnswer (r : List Byte) (s : State) : State :=
  match r with
  | [] => { s with seq := .frame rdsrFrame }
  | b :: _ =>
    if wipClear b then { s with pollByte := b, scope := .closing, seq := .frame wrdiFrame }
    else { s with pollByte := b, seq := .frame rdsrFrame }

/-- After WRDI: `SCOPE <- CLOSED`; the pending error is raised, or the operation goes on: PROGRAM with its next chunk,
ERASE_64KB and PROGRAM_PAGE with their result (R124, R128 to R130). -/
def closeScope (s : State) : State :=
  match s.pendingErr with
  | some e => raiseErr e { s with scope := .closed, pendingErr := none }
  | none =>
    match currentOp s with
    | some (.program a p n) => programLoop a p n (s.k + 1) { s with scope := .closed }
    | _ => finishOp [] { s with scope := .closed }

/-- After a transaction outside a scope: READ_DATA goes on with its loop, a mutating operation has its WREN behind it, and
any other operation ends with the transaction's bytes (R121 to R124, R104). -/
def returnOutside (v : List Byte) (s : State) : State :=
  match currentOp s with
  | some (.readData a n) => readLoop a n { s with acc := s.acc ++ v }
  | some (.erase64kb _) | some (.programPage _ _) | some (.program _ _ _) => enterBody s
  | _ => finishOp v s

/-- `return v` of a TRANSACT to the line that called it, which SCOPE and REQ name. -/
def returnTransact (v : List Byte) (s : State) : State :=
  match s.scope with
  | .closed => returnOutside v s
  | .body => startPoll s
  | .polling => pollAnswer v s
  | .closing => closeScope s

/-! ### TRANSACT (R104) -/

/-- The line `SendPacket(CMD_READ_DATA, [])` (R113). -/
def readDataLine : Seq := .packet (encodePacket cmdReadData [])

/-- The line `SendPacket(CMD_READ_REGISTER, [])` (R114). -/
def readRegisterLine : Seq := .packet (encodePacket cmdReadRegister [])

/-- The SET_REGISTER write of a transaction: descriptor and fresh Register Block, then the packet `Serialize(RB) ‖ Wp`
(R105 to R112). READ_DATA follows when the transaction reads, else the status read-back. -/
def sendTransact (f : Frame) (s : State) : State :=
  let d := describe f.wbytes.length f.rdLen f.dummy
  let rb := transactBlock s.cfg d
  sendPacket cmdSetRegister (serialize rb ++ padded f.wbytes) (if f.rdLen ≠ 0 then .askData else .askBlock)
    { s with td := d, rb := rb }

/-- `TRANSACT(f)` up to its first transport call (R104): the empty transaction returns at once (R106), one that is too long
raises (R96), any other writes its SET_REGISTER packet. A line that the block itself reaches is neither of the first two. -/
def runTransact (f : Frame) (s : State) : State :=
  if frameEmpty f then returnTransact [] s
  else if frameTooLong f then raiseErr (.invalidArgument (.wbytes f.wbytes)) s
  else sendTransact f s

/-- The UsbRead of the READ_DATA exchange (R102, R113). -/
def recvDataStep (s : State) : State := recvPacket (expectedBytes s.cfg s.rb) .gotData s

/-- The UsbRead of the READ_REGISTER exchange (R103, R114). -/
def recvBlockStep (s : State) : State := recvPacket blockBytes .gotBlock s

/-! ### The pure computation behind a transport call (R33) -/

/-- Go on at a line (R102 to R104, R113, R114, R120). -/
def goLine (next : Line) (s : State) : State :=
  match next with
  | .returnEmpty => finishOp [] s
  | .askData => { s with data := [], seq := readDataLine }
  | .askBlock => { s with data := [], seq := readRegisterLine }
  | .recvData => { s with seq := .recvData }
  | .recvBlock => { s with seq := .recvBlock }

/-- Behind a write of `len` bytes: the error it raises, else the line that follows (R99). -/
def afterWrite (len : Nat) (a : WriteAnswer) (next : Line) (s : State) : State :=
  match checkWrite len a with
  | some e => raiseErr e s
  | none => goLine next s

/-- Behind the read of the READ_DATA exchange: the packet is decoded and its length checked; then the status read-back (R100,
R102, R113). -/
def afterData (a : ReadAnswer) (s : State) : State :=
  match checkRead a with
  | .error e => raiseErr e s
  | .ok (_, payload) =>
    if payload.length ≠ expectedBytes s.cfg s.rb then
      raiseErr (.lengthAccounting (expectedBytes s.cfg s.rb) payload.length) s
    else { s with data := payload, seq := readRegisterLine }

/-- Behind the read of the READ_REGISTER exchange: the packet is decoded, `Deserialize`, and the status check; then TRANSACT
returns its data (R100, R103, R114, R115). -/
def afterBlock (a : ReadAnswer) (s : State) : State :=
  match checkRead a with
  | .error e => raiseErr e s
  | .ok (_, payload) =>
    match deserialize payload with
    | .error e => raiseErr e s
    | .ok back =>
      if statusOk s.cfg (statusWord s.cfg back) then returnTransact s.data s
      else raiseErr (.statusMismatch (statusWord s.cfg back)) s

/-! ### Accepting a request and emitting its result (R33, R144) -/

/-- Accept a request: at IDLE it is latched in REQ and SEQ goes to `position`; a busy block holds it back, and it stays on
the port (R32, R144, R152, log 11). -/
def accept (r : Request) (position : Seq) (s : State) : State :=
  if s.seq = .idle then { s with req := some r, seq := position } else { s with port := .request r :: s.port }

/-- Drop what lives only inside a request or a transaction: REQ, TD, RB, the gathered bytes and K (R17, R35, R37, R134
item 3; DESIGN CHOICE for the values left behind, log 10). -/
def dropTransients (s : State) : State :=
  { s with req := none, td := Descriptor.blank, rb := zeroBlock, data := [], acc := [], k := 0 }

/-- Emit the result: `RESULT <- r` and `SEQ <- IDLE`, in one step (R33, R39, R134 item 4). -/
def emitStep (r : Result) (s : State) : State :=
  { dropTransients s with result := some r, seq := .idle }

end Sys2Proof.Machine
end

