-- ==== Sys2Proof/Machine/Frames.lean ====
section
/-! DEFINITION. The eight flash command frames (R80, R81): each is the TRANSACT of its triple, up to its first transport
call. -/

namespace Sys2Proof.Machine

/-- RDID, opcode 0x9F (R80, R121). -/
def execRdid (s : State) : Host.Outcome State Fault Refusal := .next (runTransact rdidFrame s)

/-- RDUID, opcode 0x4B (R80, R122). -/
def execRduid (s : State) : Host.Outcome State Fault Refusal := .next (runTransact rduidFrame s)

/-- FAST_READ, opcode 0x0B (R80, R123). -/
def execFastRead (addr count : Nat) (s : State) : Host.Outcome State Fault Refusal :=
  .next (runTransact (fastReadFrame addr count) s)

/-- WREN, opcode 0x06 (R80, R125). -/
def execWren (s : State) : Host.Outcome State Fault Refusal := .next (runTransact wrenFrame s)

/-- RDSR, opcode 0x05 (R80, R126). -/
def execRdsr (s : State) : Host.Outcome State Fault Refusal := .next (runTransact rdsrFrame s)

/-- WRDI, opcode 0x04 (R80, R127). -/
def execWrdi (s : State) : Host.Outcome State Fault Refusal := .next (runTransact wrdiFrame s)

/-- BLOCK_ERASE_64KB, opcode 0xD8 (R80, R128). -/
def execBlockErase64kb (addr : Nat) (s : State) : Host.Outcome State Fault Refusal :=
  .next (runTransact (blockEraseFrame addr) s)

/-- PAGE_PROGRAM, opcode 0x02 (R80, R129). -/
def execPageProgram (addr : Nat) (payload : List Byte) (s : State) : Host.Outcome State Fault Refusal :=
  .next (runTransact (pageProgramFrame addr payload) s)

end Sys2Proof.Machine
end

