-- ==== Sys2Proof/Machine/Requests.lean ====
section
/-! DEFINITION. The eight requests (R77, R104, R120 to R123, R128 to R130). The meaning of a request is its acceptance: REQ is
latched and SEQ goes to `start(op)` (R32, R33). Beside it stands the head of its pseudocode, up to its first event: the pure
computation that R33 gives to the step that follows. -/

namespace Sys2Proof.Machine

/-! ### RESET (R120) -/

/-- Accept RESET. -/
def execReset (s : State) : Host.Outcome State Fault Refusal := .next (accept (bareRequest 0) .start s)

/-- RESET's head: the Register Block with the three reset bits and NO_DATA; next is its one SET_REGISTER write. -/
def startReset (s : State) : State :=
  { s with
    rb := resetBlock s.cfg
    seq := .packet (encodePacket cmdSetRegister (serialize (resetBlock s.cfg))) }

/-! ### READ_ID (R121) and READ_UID (R122) -/

/-- Accept READ_ID. -/
def execReadId (s : State) : Host.Outcome State Fault Refusal := .next (accept (bareRequest 1) .start s)

/-- READ_ID's head: `TRANSACT([0x9F], 3, 0)`. -/
def startReadId (s : State) : State := { s with seq := .frame rdidFrame }

/-- Accept READ_UID. -/
def execReadUid (s : State) : Host.Outcome State Fault Refusal := .next (accept (bareRequest 2) .start s)

/-- READ_UID's head: `TRANSACT([0x4B], 16, 4)`. -/
def startReadUid (s : State) : State := { s with seq := .frame rduidFrame }

/-! ### READ_DATA (R123) -/

/-- Accept READ_DATA. -/
def execReadData (addr length : Nat) (s : State) : Host.Outcome State Fault Refusal :=
  .next (accept { bareRequest 3 with addr := addr, length := length } .start s)

/-- READ_DATA's head: the range check, `ACC <- []`, then the chunk loop. -/
def startReadData (addr length : Nat) (s : State) : State :=
  if rangeBad addr length then raiseErr (.invalidArgument (.range addr length)) s
  else readLoop addr length { s with acc := [] }

/-! ### ERASE_64KB (R128) and PROGRAM_PAGE (R129) -/

/-- Accept ERASE_64KB. -/
def execErase64kb (addr : Nat) (s : State) : Host.Outcome State Fault Refusal :=
  .next (accept { bareRequest 4 with addr := addr } .start s)

/-- ERASE_64KB's head: the address check, then the write-enable scope around the 0xD8 transaction. -/
def startErase64kb (addr : Nat) (s : State) : State :=
  if addrBad addr then raiseErr (.invalidArgument (.addr addr)) s else enterScope s

/-- Accept PROGRAM_PAGE. -/
def execProgramPage (addr : Nat) (payload : List Byte) (s : State) : Host.Outcome State Fault Refusal :=
  .next (accept { bareRequest 5 with addr := addr, payload := payload } .start s)

/-- PROGRAM_PAGE's head: the address check, then the write-enable scope around the 0x02 transaction. -/
def startProgramPage (addr : Nat) (s : State) : State := beginPage addr s

/-! ### PROGRAM (R130) -/

/-- Accept PROGRAM. -/
def execProgram (addr : Nat) (payload : List Byte) (pageSize : Nat) (s : State) : Host.Outcome State Fault Refusal :=
  .next (accept { bareRequest 6 with addr := addr, payload := payload, pageSize := pageSize } .start s)

/-- PROGRAM's head: the page size check, the range check, `K <- 0`, then the chunk loop. -/
def startProgram (addr : Nat) (payload : List Byte) (pageSize : Nat) (s : State) : State :=
  if pageSize = 0 then raiseErr (.invalidArgument (.pageSize pageSize)) s
  else if rangeBad addr payload.length then raiseErr (.invalidArgument (.range addr payload.length)) s
  else programLoop addr payload pageSize 0 s

/-! ### TRANSACT (R104) -/

/-- Accept TRANSACT. The empty transaction returns `[]` in this very step (R106): SEQ goes to its emission. -/
def execTransact (wbytes : List Byte) (rdLen dummy : Nat) (s : State) : Host.Outcome State Fault Refusal :=
  .next (accept { bareRequest 7 with wbytes := wbytes, rdLen := rdLen, dummy := dummy }
    (if frameEmpty ⟨wbytes, rdLen, dummy⟩ then .emit (.ok []) else .start) s)

/-- TRANSACT's head: the empty transaction returns (R106), a packet that cannot be encoded is refused with InvalidArgument
(R96), any other goes to its SET_REGISTER write. -/
def startTransact (f : Frame) (s : State) : State :=
  if frameEmpty f then finishOp [] s else issueFrame f s

/-! ### The head of the latched request -/

/-- The pure computation of `start(op)` up to the operation's first event (R32, R33). Only the eight requests are latched
(R36); with none latched nothing runs (log 18). -/
def startOp (s : State) : State :=
  match currentOp s with
  | some .reset => startReset s
  | some .readId => startReadId s
  | some .readUid => startReadUid s
  | some (.readData a n) => startReadData a n s
  | some (.erase64kb a) => startErase64kb a s
  | some (.programPage a _) => startProgramPage a s
  | some (.program a p n) => startProgram a p n s
  | some (.transact w n d) => startTransact ⟨w, n, d⟩ s
  | _ => finishOp [] s

end Sys2Proof.Machine
end

