-- ==== Sys2Proof/Machine/Sessions.lean ====
section
/-! DEFINITION. The two session actions (R78, R150). -/

namespace Sys2Proof.Machine

/-- The open call and what it leaves (R150): SESSION and RESULT. -/
def openHandle (s : State) : State :=
  match (usbOpen s).1 with
  | .opened => { (usbOpen s).2 with session := .opened, result := some (.ok []) }
  | .notFound =>
    { (usbOpen s).2 with session := .closed, result := some (.err (.notFound s.cfg.vendorId s.cfg.productId)) }

/-- OPEN (R150): accepted only at IDLE, else it stays on the port (log 11). A held handle is closed first (decision D44). -/
def execOpenSession (s : State) : Host.Outcome State Fault Refusal :=
  .next (
    if s.seq = .idle then
      (if s.session = .opened then openHandle (usbClose s) else openHandle s)
    else { s with port := .session 0 :: s.port })

/-- CLOSE (R150): accepted at any step boundary, busy or not. The running operation is not stopped: its next transport call
fails with `TransportError(IO)` (decision D43). -/
def execCloseSession (s : State) : Host.Outcome State Fault Refusal :=
  .next (usbClose s)

end Sys2Proof.Machine
end

