-- ==== Sys2Proof/Machine/Wire.lean ====
section
/-! DEFINITION. The three wire commands (R71, R101 to R103): each is the UsbWrite of its packet at a sending line. -/

namespace Sys2Proof.Machine

/-- SET_REGISTER with its payload (R101): no answer is read (90_conflicts.md C4). As a line of its own it is RESET's packet,
after which the operation returns `[]` (R120); a transaction sends its own in `sendTransact`. -/
def execSetRegister (payload : List Byte) (s : State) : Host.Outcome State Fault Refusal :=
  .next (sendPacket cmdSetRegister payload .returnEmpty s)

/-- READ_REGISTER (R103): an empty request; its answer is read next. -/
def execReadRegister (s : State) : Host.Outcome State Fault Refusal :=
  .next (sendPacket cmdReadRegister [] .recvBlock s)

/-- READ_DATA, the wire command (R102): an empty request; its answer is read next. -/
def execReadDataPkt (s : State) : Host.Outcome State Fault Refusal :=
  .next (sendPacket cmdReadData [] .recvData s)

end Sys2Proof.Machine
end

