-- ==== Sys2Proof/Machine/Dispatch.lean ====
section
/-! DEFINITION. One arm per instruction, each a direct call of its meaning. -/

namespace Sys2Proof.Machine

def exec (i : Instr) (s : State) : Host.Outcome State Fault Refusal :=
  match i with
  -- requests (R77)
  | .reset => Sys2Proof.Machine.execReset s
  | .readId => Sys2Proof.Machine.execReadId s
  | .readUid => Sys2Proof.Machine.execReadUid s
  | .readData addr length => Sys2Proof.Machine.execReadData addr length s
  | .erase64kb addr => Sys2Proof.Machine.execErase64kb addr s
  | .programPage addr payload => Sys2Proof.Machine.execProgramPage addr payload s
  | .program addr payload pageSize => Sys2Proof.Machine.execProgram addr payload pageSize s
  | .transact wbytes rdLen dummy => Sys2Proof.Machine.execTransact wbytes rdLen dummy s
  -- session actions (R78)
  | .openSession => Sys2Proof.Machine.execOpenSession s
  | .closeSession => Sys2Proof.Machine.execCloseSession s
  -- wire commands (R71)
  | .setRegister payload => Sys2Proof.Machine.execSetRegister payload s
  | .readRegister => Sys2Proof.Machine.execReadRegister s
  | .readDataPkt => Sys2Proof.Machine.execReadDataPkt s
  -- flash command frames (R80)
  | .rdid => Sys2Proof.Machine.execRdid s
  | .rduid => Sys2Proof.Machine.execRduid s
  | .fastRead addr count => Sys2Proof.Machine.execFastRead addr count s
  | .wren => Sys2Proof.Machine.execWren s
  | .rdsr => Sys2Proof.Machine.execRdsr s
  | .wrdi => Sys2Proof.Machine.execWrdi s
  | .blockErase64kb addr => Sys2Proof.Machine.execBlockErase64kb addr s
  | .pageProgram addr payload => Sys2Proof.Machine.execPageProgram addr payload s

end Sys2Proof.Machine
end

