-- ==== Sys2Proof/Machine/Fetch.lean ====
section
/-! DEFINITION. What the machine does next: the pure computation that a step begins with, and the arbitration of the request
port with the sequencer position (R32, R33, R78, R150). -/

namespace Sys2Proof.Machine

/-- The pure computation behind the last event, up to the line of the next one: it belongs to the step that follows that
event (R33). At a line that has an event of its own there is nothing to compute. -/
def proceed (s : State) : State :=
  match s.seq with
  | .start => startOp s
  | .wrote len a next => afterWrite len a next s
  | .gotData a => afterData a s
  | .gotBlock a => afterBlock a s
  | .idle | .frame _ | .packet _ | .recvData | .recvBlock | .emit _ => s

/-- What one step runs, with the state it runs on (the port's item taken off where it is taken). -/
inductive Fetched where
  /-- Nothing is presented and nothing is running: the block waits (R146). -/
  | wait (s : State)
  /-- An encoded instruction. -/
  | instr (e : Encoded) (s : State)
  /-- A TRANSACT request's transaction whose frame is no row of R80 (R82 item 4). -/
  | plainTransact (f : Frame) (s : State)
  | recvData (s : State)
  | recvBlock (s : State)
  | emit (r : Result) (s : State)

/-- The event at a line (R32). `proceed` stops at no other position (`proceed_at_line`), so a position behind an event cannot
stand here. -/
def fetchLine (s : State) : Fetched :=
  match s.seq with
  | .frame f =>
    match decodeFrame f with
    | .ok _ => .instr (.frame f) s
    | .error _ => .plainTransact f s
  | .packet raw => .instr (.packet raw) s
  | .recvData => .recvData s
  | .recvBlock => .recvBlock s
  | .emit r => .emit r s
  | .idle | .start | .wrote _ _ _ | .gotData _ | .gotBlock _ => .wait s

/-- What the sequencer does next: the computation behind its last event, then the next event (R33). -/
def fetchSeq (s : State) : Fetched := fetchLine (proceed s)

/-- One step boundary. A presented Close is taken, busy or not; a presented request or Open is taken at IDLE and stays on
the port while the block is busy (R78, R144, R150); otherwise the sequencer goes on (log 12). -/
def fetch (s : State) : Fetched :=
  match s.port with
  | [] => fetchSeq s
  | .nothing :: rest => fetchSeq { s with port := rest }
  | .session b :: rest =>
    if b = 1#1 ∨ s.seq = .idle then .instr (.session b) { s with port := rest } else fetchSeq s
  | .request r :: rest =>
    if s.seq = .idle then .instr (.request r) { s with port := rest } else fetchSeq s

end Sys2Proof.Machine
end

