-- ==== Sys2Proof/Machine/Step.lean ====
section
/-! DEFINITION. One step of the machine (R33), and placing an instruction where the step fetches it. -/

namespace Sys2Proof.Machine

/-- Run what a step boundary has fetched. -/
def runFetched : Fetched → Host.Outcome State Fault Refusal
  | .wait t => .next t
  | .instr e t =>
    match decode e with
    | .ok i => exec i t
    | .error why => .refused (.undecodable why)
  | .plainTransact f t => .next (runTransact f t)
  | .recvData t => .next (recvDataStep t)
  | .recvBlock t => .next (recvBlockStep t)
  | .emit r t => .next (emitStep r t)

/-- One step: accept a request or a session action, one UsbWrite, one UsbRead, emit a result, or wait (R33). -/
def step (s : State) : Host.Outcome State Fault Refusal := runFetched (fetch s)

/-- Put an encoded object where the step fetches it: requests and session actions on the request port of an idle block,
frames and packets at the sequencer position that runs them, with nothing presented at that step boundary (log 1, log 15). -/
def State.withEncoded (s : State) : Encoded → State
  | .request r => { s with seq := .idle, port := .request r :: s.port }
  | .session b => { s with seq := .idle, port := .session b :: s.port }
  | .packet raw => { s with seq := .packet raw, port := .nothing :: s.port }
  | .frame f => { s with seq := .frame f, port := .nothing :: s.port }

/-- `s` with the instruction of a word of spec/opcode_table.json placed where the step fetches it. -/
def State.withFetchWord (s : State) (nbits w : Nat) : State :=
  match tableEncoded nbits w with
  | some e => s.withEncoded e
  | none => s

end Sys2Proof.Machine
end

