-- ==== Sys2Proof/Safety.lean ====
section
/-! DEFINITION. What counts as a safe run, in the terms the statements use: runs of several steps, the invariants every step
keeps, and when two states behave alike. -/

namespace Sys2Proof.Safety

open Sys2Proof.Machine

/-- `n` steps, stopping at the first fault or refusal. -/
def runSteps : Nat → State → Host.Outcome State Fault Refusal
  | 0, s => .next s
  | n + 1, s =>
    match step s with
    | .next t => runSteps n t
    | .fault r => .fault r
    | .refused r => .refused r

/-! ### The sequencer's invariant -/

/-- The operation is one of the three that open a write-enable scope (R38). -/
def mutating : Option Instr → Bool
  | some (.erase64kb _) | some (.programPage _ _) | some (.program _ _ _) => true
  | _ => false

/-- The sequencer's state is one the pseudocode can be in: an idle block holds no request, no scope and no pending error
(R43, R135); an accepted request is latched and outside a scope; an operation ends outside a scope; an error is pending only
while the scope's exit runs (R124); a scope is open only inside ERASE_64KB, PROGRAM_PAGE and PROGRAM (R38); a transaction line
has something to exchange and a packet that can be encoded (R96, R106); a packet line holds a wire command, and RESET's
SET_REGISTER stands outside a scope (R71, R120); and the reference flash's array has its canonical form. -/
structure SequencerInv (s : State) : Prop where
  idle_clean : s.seq = .idle → s.scope = .closed ∧ s.req = none
  start_clean : s.seq = .start → s.scope = .closed ∧ s.req ≠ none
  emit_outside : ∀ r, s.seq = .emit r → s.scope = .closed
  pending_in_exit : s.pendingErr ≠ none → s.scope = .polling ∨ s.scope = .closing
  scope_op : s.scope ≠ .closed → mutating (currentOp s) = true
  frame_line : ∀ f, s.seq = .frame f → frameEmpty f = false ∧ frameTooLong f = false
  packet_line : ∀ raw, s.seq = .packet raw → ∃ i, decodeWire raw = .ok i
  set_line_outside : ∀ raw p, s.seq = .packet raw → decodeWire raw = .ok (.setRegister p) → s.scope = .closed
  reset_outside : ∀ n a, s.seq = .wrote n a .returnEmpty → s.scope = .closed
  flash_wf : s.env.ref.flash.mem.wf = true

/-! ### Half-duplex order of transport calls (R59) -/

/-- The newest call that is no `close`. -/
def lastCall : List Event → Option Event
  | [] => none
  | .closed :: rest => lastCall rest
  | e :: _ => some e

/-- The call is the write of a READ_DATA request, or of a READ_REGISTER request whose answer may have 48 bytes. -/
def asksFor (max : Nat) : Option Event → Bool
  | some (.wrote raw _ _) =>
    raw == encodePacket cmdReadData [] || (raw == encodePacket cmdReadRegister [] && max == hdrBytes + blockBytes)
  | _ => false

/-- Every read stands right after the write of the request it answers, but for closes between them. -/
def readsFollow : List Event → Bool
  | [] => true
  | .readUpTo max _ _ :: rest => asksFor max (lastCall rest) && readsFollow rest
  | _ :: rest => readsFollow rest

/-- The transport port is used request by request (R59). -/
structure HalfDuplex (s : State) : Prop where
  reads_follow : readsFollow s.events = true
  data_asked : (s.seq = .recvData ∨ ∃ n a, s.seq = .wrote n a .recvData) →
    ∃ t a, lastCall s.events = some (.wrote (encodePacket cmdReadData []) t a)
  block_asked : (s.seq = .recvBlock ∨ ∃ n a, s.seq = .wrote n a .recvBlock) →
    ∃ t a, lastCall s.events = some (.wrote (encodePacket cmdReadRegister []) t a)

/-! ### States that behave alike (R17, R148) -/

/-- The position will still read the Register Block: before the READ_DATA exchange's length check (R113). -/
def needsBlock : Seq → Bool
  | .recvData | .gotData _ | .wrote _ _ .askData | .wrote _ _ .recvData => true
  | .packet raw => decide (decodeWire raw = .ok .readDataPkt)
  | _ => false

/-- The position will still return the transaction's `data` (R115). -/
def needsData : Seq → Bool
  | .recvBlock | .gotBlock _ | .wrote _ _ .recvBlock => true
  | .packet raw => decide (decodeWire raw = .ok .readRegister)
  | _ => false

/-- The running operation is READ_DATA, which reads ACC (R37). -/
def needsAcc : Option Instr → Bool
  | some (.readData _ _) => true
  | _ => false

/-- The running operation is PROGRAM, which reads K (R37). -/
def needsChunk : Option Instr → Bool
  | some (.program _ _ _) => true
  | _ => false

/-- A position inside an operation, behind its head and before its end: ACC and K are set at the head (R123, R130). -/
def running : Seq → Bool
  | .idle | .start | .emit _ => false
  | _ => true

/-- The two states agree on all that the block's behaviour may depend on. They may differ in POLL_BYTE, RESULT, TD and the
events of the past, and in RB, `data`, ACC and K wherever no running transaction or operation uses them. -/
structure Agree (s t : State) : Prop where
  cfg : s.cfg = t.cfg
  seq : s.seq = t.seq
  req : s.req = t.req
  scope : s.scope = t.scope
  pendingErr : s.pendingErr = t.pendingErr
  session : s.session = t.session
  port : s.port = t.port
  env : s.env = t.env
  rb : needsBlock s.seq = true → s.rb = t.rb
  data : needsData s.seq = true → s.data = t.data
  acc : running s.seq = true → needsAcc (currentOp s) = true → s.acc = t.acc
  k : running s.seq = true → needsChunk (currentOp s) = true → s.k = t.k

/-! ### Answers the statements place in the environment -/

/-- A READ_DATA answer carrying `d` (R102). -/
def dataAnswer (d : List Byte) : ReadAnswer := .bytes (encodePacket cmdReadData d)

/-- A READ_REGISTER answer carrying the block `b` (R103). -/
def blockAnswer (b : RegBlock) : ReadAnswer := .bytes (encodePacket cmdReadRegister (serialize b))

/-- The READ_DATA request packet: `02 00 02 00 00 00 00 00` (R102). -/
def readDataPacket : List Byte := encodePacket cmdReadData []

/-- The READ_REGISTER request packet: `01 00 02 00 00 00 00 00` (R103). -/
def readRegisterPacket : List Byte := encodePacket cmdReadRegister []

/-- The transport takes the whole packet: no error is raised (R99). -/
def takesPacket (raw : List Byte) (s : State) : Prop := (answerWrite raw s).1 = .count raw.length

/-- The SET_REGISTER packet of a transaction under a configuration (R112). -/
def setPacket (c : Config) (f : Frame) : List Byte :=
  encodePacket cmdSetRegister
    (serialize (transactBlock c (describe f.wbytes.length f.rdLen f.dummy)) ++ padded f.wbytes)

/-- The line behind a transaction's SET_REGISTER packet (R113, R114). -/
def afterSet (f : Frame) : Line := if f.rdLen ≠ 0 then .askData else .askBlock

/-- An idle block right after accepting a request (R32, R33). -/
def accepted (r : Request) (s : State) : State := { s with req := some r, seq := .start }

/-- The transport calls of a whole transaction that is taken and answered well, oldest first: SET_REGISTER, the READ_DATA
exchange with the answer `d` if it reads, and the READ_REGISTER exchange with the answer `back` (R112 to R114). -/
def transactionCalls (c : Config) (f : Frame) (d : List Byte) (back : RegBlock) : List Event :=
  .wrote (setPacket c f) c.timeoutMs (.count (setPacket c f).length) ::
    ((if f.rdLen ≠ 0 then
        [.wrote readDataPacket c.timeoutMs (.count 8), .readUpTo (8 + d.length) c.timeoutMs (dataAnswer d)]
      else []) ++
      [.wrote readRegisterPacket c.timeoutMs (.count 8), .readUpTo 48 c.timeoutMs (blockAnswer back)])

/-- The state of a request port with nothing coming, an open session, no packet limit, and the given scripted answers of
the oracle environment. -/
structure Scripted (s : State) (writes : List WriteAnswer) (reads : List ReadAnswer) : Prop where
  port : s.port = []
  session : s.session = .opened
  maxPacket : s.cfg.maxPacket = none
  kind : s.env.kind = .oracle
  writes : s.env.oracle.writes = writes
  reads : s.env.oracle.reads = reads

/-- An open session with the reference environment behind it, the default configuration, and nothing coming on the request
port (95_test_vectors.md section 3). -/
structure ReferenceBehind (s : State) : Prop where
  cfg : ∃ t v p, s.cfg = defaultConfigWith t v p
  port : s.port = []
  session : s.session = .opened
  kind : s.env.kind = .reference

/-- The same, with the flash idle and its array in canonical form. -/
structure ReferenceReady (s : State) : Prop extends ReferenceBehind s where
  notBusy : s.env.ref.flash.busy = 0
  memWf : s.env.ref.flash.mem.wf = true

/-- One byte of the reference flash. -/
def flashByte (s : State) (a : Nat) : Byte := memRead s.env.ref.flash.mem a

/-- Run from its line for five steps, one for each transport call of a transaction that reads, the transaction `f` leaves the
reference flash as `after` and returns the bytes `d` (R104). -/
def ReturnsFromFlash (s : State) (f : Frame) (d : List Byte) (after : Flash) : Prop :=
  ∃ u, runSteps 5 { s with seq := .frame f } = .next u ∧ proceed u = returnTransact d u ∧ u.env.ref.flash = after

/-- The flash address is one that the driven frame may store to: a byte of the 64 KB block it erases, or of the page bytes
it programs (R68). -/
def frameStores (frame : List Byte) (a : Nat) : Prop :=
  (frame.head? = some opBlockErase ∧ eraseBase (frameAddr frame) ≤ a % flashSize ∧
    a % flashSize < eraseBase (frameAddr frame) + 65536) ∨
  (frame.head? = some opPageProgram ∧
    ∃ j, j < frame.length - 4 ∧ pageAddr (frameAddr frame) j % flashSize = a % flashSize)

/-- The bytes driven to the flash by a SET_REGISTER payload, none where nothing goes on the bus (R66). -/
def drivenFrame (c : Config) (payload : List Byte) : Option (List Byte) :=
  if payload.length < blockBytes ∨ resetBitSet c (blockOfBytes (payload.take blockBytes)) then none
  else (bridgeFrame c (blockOfBytes (payload.take blockBytes)) (payload.drop blockBytes)).map Prod.fst

/-- The number of READ_DATA's chunks for a byte string: `ceil(len / 0x50)` (R123). -/
def chunkCount (d : List Byte) : Nat := (d.length + (maxXfer - 1)) / maxXfer

/-- Chunk `j` of a byte string that READ_DATA reads: at most `MAX_XFER` bytes from `j · MAX_XFER` on (R123). -/
def readChunk (d : List Byte) (j : Nat) : List Byte := (d.drop (maxXfer * j)).take maxXfer

/-- What a scripted transport answers to the two or three writes of a transaction that writes at most four bytes and is
taken whole: SET_REGISTER (52 bytes), READ_DATA if it reads, READ_REGISTER. -/
def shortWrites (reads : Bool) : List WriteAnswer :=
  if reads then [.count 52, .count 8, .count 8] else [.count 52, .count 8]

/-- What a scripted transport answers to the reads of one RDSR poll that returns `b`. -/
def pollReads (back : RegBlock) (b : Byte) : List ReadAnswer := [dataAnswer [b], blockAnswer back]

end Sys2Proof.Safety
end

