-- ==== Sys2Proof/Certificates/Slice0/Obligations.lean ====
section
/-! DEFINITION. The statements for the provers. Each is a definition; none is proved here. -/

open Sys2Proof Sys2Proof.Machine Sys2Proof.Safety

/-! ### Encoding and decoding -/

/-- R77, R78, R79: each of the eight `op` values is its operation with its operands, whatever the unused operands hold, and
the session signal is Open at 0 and Close at 1. -/
def Obligations.RequestWordsAreTheOperations : Prop :=
  (∀ r : Request,
    decode (.request { r with op := 0 }) = .ok .reset ∧
    decode (.request { r with op := 1 }) = .ok .readId ∧
    decode (.request { r with op := 2 }) = .ok .readUid ∧
    decode (.request { r with op := 3 }) = .ok (.readData r.addr r.length) ∧
    decode (.request { r with op := 4 }) = .ok (.erase64kb r.addr) ∧
    decode (.request { r with op := 5 }) = .ok (.programPage r.addr r.payload) ∧
    decode (.request { r with op := 6 }) = .ok (.program r.addr r.payload r.pageSize) ∧
    decode (.request { r with op := 7 }) = .ok (.transact r.wbytes r.rdLen r.dummy)) ∧
  decode (.session 0) = .ok .openSession ∧ decode (.session 1) = .ok .closeSession

/-- Decoding an encoded well-formed instruction gives it back, every operand with it (R69 to R71, R77 to R81). -/
def Obligations.DecodeOfEncodeIsIdentity : Prop :=
  ∀ i : Instr, i.wellFormed = true → decode (encode i) = .ok i

/-- A packet or a frame that decodes is the encoding of what it decodes to: no wire command and no flash command has a
second encoding (R70, R71, R80). That READ_REGISTER and READ_DATA packets need an empty payload and a frame exactly the
counts of its row, where R80 matches the first byte alone, is the model's choice (log 26). -/
def Obligations.DecodedPacketsAndFramesReencode : Prop :=
  (∀ raw i, decodeWire raw = .ok i → encode i = .packet raw) ∧
  (∀ f i, decodeFrame f = .ok i → encode i = .frame f)

/-- Words written out from the encodings of R71, R77, R78 and R80 decode to their instructions. That an 8-bit table word below 8
is read as a request is the model's choice (log 14). -/
def Obligations.WrittenOutWordsDecode : Prop :=
  decodeTableWord 8 0b00000011 = some (.readData 0 0) ∧
  decodeTableWord 8 0b00000111 = some (.transact [] 0 0) ∧
  decodeTableWord 1 0b1 = some .closeSession ∧
  decodeTableWord 32 0x00020001 = some .readRegister ∧
  decodeTableWord 8 0x9F = some .rdid ∧
  decode (.packet [0x00, 0x00, 0x02, 0x00, 0x02, 0x00, 0x00, 0x00, 0xAA, 0xBB]) = .ok (.setRegister [0xAA, 0xBB]) ∧
  decode (.frame ⟨[0x0B, 0x0A, 0x1B, 0x2C], 80, 1⟩) = .ok (.fastRead 0x0A1B2C 80) ∧
  decode (.frame ⟨[0x02, 0x00, 0x02, 0x00, 0x5A], 0, 0⟩) = .ok (.pageProgram 0x000200 [0x5A])

/-- A step runs the decoded instruction: a request or Open presented to an idle block and a Close at any boundary are taken
off the port and executed; otherwise the step first does the pure computation behind the last event (`proceed`), and where
that leads to a packet line or a frame line it executes the wire command or flash command that stands there, an empty step
boundary being used up and a held request or Open staying (R32, R33, R78, R150). The port as a schedule of step boundaries is
the model's choice (log 1, log 11, log 12). -/
def Obligations.StepRunsDecodedInstruction : Prop :=
  ∀ (s : State) (i : Instr),
    (∀ r rest, s.seq = .idle → s.port = .request r :: rest → decode (.request r) = .ok i →
      step s = exec i { s with port := rest }) ∧
    (∀ b rest, s.seq = .idle ∨ b = 1 → s.port = .session b :: rest → decode (.session b) = .ok i →
      step s = exec i { s with port := rest }) ∧
    (∀ e, (∃ raw, (proceed s).seq = .packet raw ∧ e = .packet raw) ∨ (∃ f, (proceed s).seq = .frame f ∧ e = .frame f) →
      decode e = .ok i →
      (s.port = [] → step s = exec i (proceed s)) ∧
      (∀ rest, s.port = .nothing :: rest → step s = exec i { proceed s with port := rest }) ∧
      (∀ r rest, s.port = .request r :: rest → step s = exec i (proceed s)) ∧
      (∀ rest, s.port = .session 0 :: rest → step s = exec i (proceed s)))

/-- R49: a flash address is sent most significant byte first; the three bytes give a 24-bit address back. -/
def Obligations.AddressesAreBigEndian : Prop :=
  be24 0x0A1B2C = [0x0A, 0x1B, 0x2C] ∧
  ∀ a, a < 2 ^ 24 → ∃ b2 b1 b0, be24 a = [b2, b1, b0] ∧
    b2.toNat = a / 65536 ∧ b1.toNat = a / 256 % 256 ∧ b0.toNat = a % 256 ∧ fromBe24 b2 b1 b0 = a

/-! ### The Packet Codec -/

/-- R97: Decode's two rejections, with their values and in their order, and what it answers otherwise; with it the laws of
R98: decode after encode gives back what was encoded, and Encode is injective. -/
def Obligations.PacketCodecLaws : Prop :=
  (∀ (c : Word) (p : List Byte), p.length < 2 ^ 32 → decodePacket (encodePacket c p) = .ok (c, p)) ∧
  (∀ raw : List Byte, raw.length < 8 → decodePacket raw = .error (.malformedPacket raw.length)) ∧
  (∀ raw : List Byte, 8 ≤ raw.length → (fromLe32 (slice raw 4 8)).toNat ≠ raw.length - 8 →
    decodePacket raw = .error (.lengthMismatch (fromLe32 (slice raw 4 8)).toNat (raw.length - 8))) ∧
  (∀ raw : List Byte, 8 ≤ raw.length → (fromLe32 (slice raw 4 8)).toNat = raw.length - 8 →
    decodePacket raw = .ok (fromLe32 (slice raw 0 4), slice raw 8 raw.length)) ∧
  (∀ (c d : Word) (p q : List Byte), p.length < 2 ^ 32 → q.length < 2 ^ 32 →
    encodePacket c p = encodePacket d q → c = d ∧ p = q)

/-! ### The Register Block -/

/-- R16, R91: a field is a view of its bits of its register's word, and a field write changes those bits only, to the value
cut to the field's width; with it the five laws of R94. A field stands inside its 32-bit register; two fields do not overlap
when neither claims a bit of the other. -/
def Obligations.RegisterBlockLaws : Prop :=
  (∀ rb : RegBlock, deserialize (serialize rb) = .ok rb) ∧
  (∀ s : List Byte, s.length = 40 → ∃ rb, deserialize s = .ok rb ∧ serialize rb = s) ∧
  (∀ (c : Config) (rb : RegBlock) (f : Field) (v : Nat) (i : Fin 10) (b : FieldBits),
    regSlot c (fieldReg f) = some i → fieldBits c f = some b → b.lo + b.width ≤ 32 →
    fieldGet c (fieldSet c rb f v) f = v % 2 ^ b.width ∧
    (∀ j, j < 32 → (j < b.lo ∨ b.lo + b.width ≤ j) →
      (wordGet (fieldSet c rb f v) i).getLsbD j = (wordGet rb i).getLsbD j) ∧
    (∀ g d, fieldReg g = fieldReg f → fieldBits c g = some d → d.lo + d.width ≤ 32 →
      (d.lo + d.width ≤ b.lo ∨ b.lo + b.width ≤ d.lo) →
      fieldGet c (fieldSet c rb f v) g = fieldGet c rb g ∧
      ∀ w, fieldSet c (fieldSet c rb f v) g w = fieldSet c (fieldSet c rb g w) f v) ∧
    (∀ j, j ≠ i → wordGet (fieldSet c rb f v) j = wordGet rb j) ∧
    fieldGet c rb f = (wordGet rb i).toNat / 2 ^ b.lo % 2 ^ b.width)

/-- R86: every slot of a fresh Register Block holds the default word of the register in it; the defaults' bytes are those of
the example. -/
def Obligations.DefaultsFillEverySlot : Prop :=
  (∀ (c : Config) (r : RegName) (i : Fin 10), regSlot c r = some i →
    wordGet (defaultsBlock c) i = regDefault c.defaults r) ∧
  (∀ (c : Config) (i : Fin 10), wordGet (defaultsBlock c) i = regDefault c.defaults (slotGet c.slots i)) ∧
  ∀ t v p, serialize (defaultsBlock (defaultConfigWith t v p)) =
    [0x00, 0x00, 0x00, 0x00, 0x80, 0x07, 0x02, 0x00, 0x00, 0x00, 0x00, 0x00, 0x00, 0x00, 0x00, 0x00,
     0x00, 0x00, 0x00, 0x00, 0x00, 0x00, 0x00, 0x00, 0x00, 0x40, 0x40, 0x00, 0x00, 0x00, 0x00, 0x00,
     0x00, 0x00, 0x00, 0x00, 0x00, 0x00, 0x00, 0x00]

/-- R92: the serialized form is 40 bytes, and byte `4i + j` is bits `8j + 7 : 8j` of word `i`. -/
def Obligations.SerializeIsLittleEndianByWord : Prop :=
  ∀ rb : RegBlock, (serialize rb).length = 40 ∧
    ∀ (i : Fin 10) (j : Nat), j < 4 →
      (serialize rb)[4 * i.val + j]? = some ((wordGet rb i).extractLsb' (8 * j) 8)

/-- R93: any string that is not 40 bytes is rejected with its length; any other gives the block whose word `i` is the
little-endian word of bytes `4i .. 4i + 3`. -/
def Obligations.DeserializeTakesFortyBytes : Prop :=
  ∀ s : List Byte,
    (s.length ≠ 40 → deserialize s = .error (.registerBlockLength s.length)) ∧
    (s.length = 40 → ∃ rb, deserialize s = .ok rb ∧
      ∀ i : Fin 10, wordGet rb i = fromLe32 (slice s (4 * i.val) (4 * i.val + 4)))

/-! ### The arithmetic of a transaction -/

/-- R105: the padding formula, its range, and the padded string: a multiple of 4 bytes, the write bytes first. -/
def Obligations.PaddingRule : Prop :=
  (∀ n, paddingOf n = (4 - n % 4) % 4 ∧ paddingOf n ≤ 3 ∧ (n + paddingOf n) % 4 = 0 ∧
    (n % 4 = 0 → paddingOf n = 0) ∧ (n % 4 ≠ 0 → paddingOf n = 4 - n % 4)) ∧
  (∀ w : List Byte, padded w = w ++ List.replicate (paddingOf w.length) 0xFF#8 ∧
    (padded w).length = w.length + paddingOf w.length)

/-- R107 to R110: the transfer mode and the counters of every non-empty transaction; a counter the mode does not write is
left at its default. -/
def Obligations.ModeAndCounters : Prop :=
  ∀ w r d : Nat, w ≠ 0 ∨ r ≠ 0 →
    (r = 0 → (describe w r d).mode = .writeOnly ∧ (describe w r d).wrCnt = some (w - 1) ∧
      (describe w r d).rdCnt = none ∧ (describe w r d).dmCnt = none) ∧
    (w = 0 → (describe w r d).mode = .readOnly ∧ (describe w r d).wrCnt = none ∧
      (describe w r d).rdCnt = some (r - 1) ∧ (describe w r d).dmCnt = none) ∧
    (w ≠ 0 → r ≠ 0 → d ≤ paddingOf w →
      (describe w r d).mode = .writeThenRead ∧ (describe w r d).wrCnt = some (w - 1 + d) ∧
      (describe w r d).rdCnt = some (r - 1) ∧ (describe w r d).dmCnt = none) ∧
    (w ≠ 0 → r ≠ 0 → paddingOf w < d →
      (describe w r d).mode = .writeDummyRead ∧ (describe w r d).wrCnt = some (w - 1 + paddingOf w) ∧
      (describe w r d).rdCnt = some (r - 1) ∧ (describe w r d).dmCnt = some (d - 1 - paddingOf w))

/-- R116, items 1 to 5, over what `describe` computes: the write phase never runs past the padded string, padding and
explicit dummy units make up the dummy count, and so the units clocked between the last write byte and the first read byte
are `dummy`. -/
def Obligations.DummyUnitsAddUp : Prop :=
  ∀ w r d wc : Nat, w ≠ 0 → r ≠ 0 → (describe w r d).wrCnt = some wc →
    (w + paddingOf w) % 4 = 0 ∧ paddingOf w ≤ 3 ∧
    wc + 1 ≤ w + paddingOf w ∧ w ≤ wc + 1 ∧
    ((describe w r d).mode = .writeDummyRead → wc + 1 = w + paddingOf w ∧
      ∃ dc, (describe w r d).dmCnt = some dc ∧ dc + 1 + paddingOf w = d) ∧
    (wc + 1 - w) + (match (describe w r d).dmCnt with | some dc => dc + 1 | none => 0) = d

/-- R111, R120, R19, R31: in a well-formed configuration the block of a transaction holds the mode's code and each written count
cut to its field, the block of RESET the three reset bits and the code of NO_DATA, and either block every other field and every
other bit, reserved bits included, at its default. That a well-formed configuration's mode codes fit the TransMode field, and
that its unused fields are disjoint, is the model's choice (log 31). -/
def Obligations.TransactionBlockContents : Prop :=
  ∀ c : Config, c.wellFormed = true →
    (∀ d : Descriptor,
      fieldGet c (transactBlock c d) .transMode = modeCode c.modes d.mode ∧
      (∀ (f : Field) (b : FieldBits) (cnt : Option Nat), fieldBits c f = some b →
        (f = .wrTranCnt ∧ cnt = d.wrCnt) ∨ (f = .rdTranCnt ∧ cnt = d.rdCnt) ∨ (f = .dummyCnt ∧ cnt = d.dmCnt) →
        fieldGet c (transactBlock c d) f =
          match cnt with
          | some n => n % 2 ^ b.width
          | none => fieldGet c (defaultsBlock c) f) ∧
      (∀ f, f ≠ .transMode → f ≠ .wrTranCnt → f ≠ .rdTranCnt → f ≠ .dummyCnt →
        fieldGet c (transactBlock c d) f = fieldGet c (defaultsBlock c) f) ∧
      (∀ (i : Fin 10) (j : Nat),
        (∀ f b, f = .transMode ∨ f = .wrTranCnt ∨ f = .rdTranCnt ∨ f = .dummyCnt → regSlot c (fieldReg f) = some i →
          fieldBits c f = some b → j < b.lo ∨ b.lo + b.width ≤ j) →
        (wordGet (transactBlock c d) i).getLsbD j = (wordGet (defaultsBlock c) i).getLsbD j)) ∧
    (fieldGet c (resetBlock c) .spiRst = 1 ∧ fieldGet c (resetBlock c) .rxFifoRst = 1 ∧
      fieldGet c (resetBlock c) .txFifoRst = 1 ∧ fieldGet c (resetBlock c) .transMode = modeCode c.modes .noData ∧
      (∀ f, f ≠ .spiRst → f ≠ .rxFifoRst → f ≠ .txFifoRst → f ≠ .transMode →
        fieldGet c (resetBlock c) f = fieldGet c (defaultsBlock c) f) ∧
      (∀ (i : Fin 10) (j : Nat),
        (∀ f b, f = .spiRst ∨ f = .rxFifoRst ∨ f = .txFifoRst ∨ f = .transMode → regSlot c (fieldReg f) = some i →
          fieldBits c f = some b → j < b.lo ∨ b.lo + b.width ≤ j) →
        (wordGet (resetBlock c) i).getLsbD j = (wordGet (defaultsBlock c) i).getLsbD j))

/-! ### The transport port -/

/-- R99: SendPacket makes one UsbWrite of the encoded packet; behind it a transport failure raises TransportError, any count
but the packet's length raises ShortWrite, and the packet's length goes on to the line that follows. Without a session the
write fails as an I/O error and nothing reaches the environment (decision D43; that the call is recorded, log 5). -/
def Obligations.SendPacketChecksTheCount : Prop :=
  ∀ (s : State) (c : Word) (p : List Byte) (next : Line),
    let raw := encodePacket c p
    let a := (answerWrite raw s).1
    let t := sendPacket c p next s
    t = { s with
      env := (answerWrite raw s).2
      events := .wrote raw s.cfg.timeoutMs a :: s.events
      seq := .wrote raw.length a next } ∧
    (∀ k, a = .failed k → proceed t = raiseErr (.transportError k) t) ∧
    (∀ n, a = .count n → n ≠ raw.length → proceed t = raiseErr (.shortWrite raw.length n) t) ∧
    (a = .count raw.length → proceed t = goLine next t) ∧
    (s.session = .closed → a = .failed .io ∧ (answerWrite raw s).2 = s.env)

/-- R100: RecvPacket(n) makes one UsbRead of at most `8 + n` bytes; behind it a transport failure raises TransportError, any
byte string goes through Decode, and its command word is not compared. Without a session the read fails as an I/O error and
nothing reaches the environment (decision D43; that the call is recorded, log 5). -/
def Obligations.RecvPacketDecodesOneRead : Prop :=
  (∀ (s : State) (n : Nat) (behind : ReadAnswer → Seq),
    recvPacket n behind s = { s with
      env := (answerRead (8 + n) s).2
      events := .readUpTo (8 + n) s.cfg.timeoutMs (answerRead (8 + n) s).1 :: s.events
      seq := behind (answerRead (8 + n) s).1 } ∧
    (s.session = .closed → answerRead (8 + n) s = (.failed .io, s.env))) ∧
  (∀ k, checkRead (.failed k) = .error (.transportError k)) ∧
  (∀ raw, checkRead (.bytes raw) = decodePacket raw) ∧
  (∀ c p, p.length < 2 ^ 32 → checkRead (.bytes (encodePacket c p)) = .ok (c, p)) ∧
  (∀ (s : State) (a : ReadAnswer) (e : Err), s.seq = .gotData a ∨ s.seq = .gotBlock a → checkRead a = .error e →
    proceed s = raiseErr e s)

/-! ### Requests: where each one completes -/

/-- RESET, READ_ID and READ_UID complete at IDLE: REQ is latched and SEQ goes to the operation's start, nothing else changing;
from there the computation leads to RESET's SET_REGISTER packet, which holds RESET's Register Block (its contents are in
TransactionBlockContents), or to the identification transaction, nothing else changing (R32, R33, R120 to R122). -/
def Obligations.ResetAndIdentifyAreAccepted : Prop :=
  ∀ s : State, s.seq = .idle →
    (exec .reset s = .next { s with req := some (bareRequest 0), seq := .start } ∧
      proceed (accepted (bareRequest 0) s) = { s with
        req := some (bareRequest 0)
        rb := resetBlock s.cfg
        seq := .packet (encodePacket cmdSetRegister (serialize (resetBlock s.cfg))) }) ∧
    (exec .readId s = .next { s with req := some (bareRequest 1), seq := .start } ∧
      proceed (accepted (bareRequest 1) s) = { s with req := some (bareRequest 1), seq := .frame ⟨[0x9F], 3, 0⟩ }) ∧
    (exec .readUid s = .next { s with req := some (bareRequest 2), seq := .start } ∧
      proceed (accepted (bareRequest 2) s) = { s with req := some (bareRequest 2), seq := .frame ⟨[0x4B], 16, 4⟩ })

/-- READ_DATA completes at IDLE (R33, R123): REQ is latched, and from the operation's start a range beyond 24 bits is an
InvalidArgument, a length of 0 returns no bytes, and any other range goes to its first chunk of at most 0x50 bytes, with one
dummy unit. Nothing else changes. -/
def Obligations.ReadDataIsAccepted : Prop :=
  ∀ (s : State) (a n : Nat), s.seq = .idle → s.scope = .closed →
    let r : Request := { bareRequest 3 with addr := a, length := n }
    exec (.readData a n) s = .next { s with req := some r, seq := .start } ∧
    (2 ^ 24 ≤ a ∨ 2 ^ 24 < a + n →
      proceed (accepted r s) = { s with req := some r, seq := .emit (.err (.invalidArgument (.range a n))) }) ∧
    (a < 2 ^ 24 → a + n ≤ 2 ^ 24 → n = 0 →
      proceed (accepted r s) = { s with req := some r, acc := [], seq := .emit (.ok []) }) ∧
    (a < 2 ^ 24 → a + n ≤ 2 ^ 24 → n ≠ 0 →
      proceed (accepted r s) = { s with req := some r, acc := [], seq := .frame ⟨0x0B :: be24 a, min 0x50 n, 1⟩ })

/-- ERASE_64KB and PROGRAM_PAGE complete at IDLE (R33, R128, R129): REQ is latched, and from the operation's start an address
beyond 24 bits is an InvalidArgument, any other goes to the WREN transaction of the write-enable scope. Nothing else
changes. -/
def Obligations.EraseAndPageAreAccepted : Prop :=
  ∀ (s : State) (a : Nat) (p : List Byte), s.seq = .idle → s.scope = .closed →
    let re : Request := { bareRequest 4 with addr := a }
    let rp : Request := { bareRequest 5 with addr := a, payload := p }
    exec (.erase64kb a) s = .next { s with req := some re, seq := .start } ∧
    exec (.programPage a p) s = .next { s with req := some rp, seq := .start } ∧
    (a < 2 ^ 24 →
      proceed (accepted re s) = { s with req := some re, seq := .frame ⟨[0x06], 0, 0⟩ } ∧
      proceed (accepted rp s) = { s with req := some rp, seq := .frame ⟨[0x06], 0, 0⟩ }) ∧
    (2 ^ 24 ≤ a →
      proceed (accepted re s) = { s with req := some re, seq := .emit (.err (.invalidArgument (.addr a))) } ∧
      proceed (accepted rp s) = { s with req := some rp, seq := .emit (.err (.invalidArgument (.addr a))) })

/-- PROGRAM completes at IDLE (R33, R130): REQ is latched, and from the operation's start a page size of 0 or a range beyond
24 bits is an InvalidArgument, in that order; else K goes to the first chunk from 0 on that is not all 0xFF, every chunk
before it being blank, and its PROGRAM_PAGE starts with WREN; with no such chunk the operation ends with no bytes and no
packet. Nothing else changes. -/
def Obligations.ProgramIsAccepted : Prop :=
  ∀ (s : State) (a n : Nat) (p : List Byte), s.seq = .idle → s.scope = .closed →
    let r : Request := { bareRequest 6 with addr := a, payload := p, pageSize := n }
    exec (.program a p n) s = .next { s with req := some r, seq := .start } ∧
    (n = 0 →
      proceed (accepted r s) = { s with req := some r, seq := .emit (.err (.invalidArgument (.pageSize 0))) }) ∧
    (n ≠ 0 → 2 ^ 24 ≤ a ∨ 2 ^ 24 < a + p.length →
      proceed (accepted r s) = { s with req := some r, seq := .emit (.err (.invalidArgument (.range a p.length))) }) ∧
    (n ≠ 0 → a < 2 ^ 24 → a + p.length ≤ 2 ^ 24 →
      ∃ k, (∀ j, j < k → j * n < p.length ∧ (programChunk p n j).all (fun b => b == 0xFF#8) = true) ∧
        ((k * n < p.length ∧ (programChunk p n k).all (fun b => b == 0xFF#8) = false ∧
          proceed (accepted r s) = { s with req := some r, k := k, seq := .frame ⟨[0x06], 0, 0⟩ }) ∨
         (p.length ≤ k * n ∧
          proceed (accepted r s) = { s with req := some r, k := k, seq := .emit (.ok []) })))

/-- R106: a TRANSACT with nothing to write and nothing to read returns `[]` in the step that accepts it, whatever `dummy`
is: no Register Block is built, no packet is written. -/
def Obligations.EmptyTransactReturnsAtOnce : Prop :=
  ∀ (s : State) (d : Nat), s.seq = .idle →
    exec (.transact [] 0 d) s =
      .next { s with req := some { bareRequest 7 with dummy := d }, seq := .emit (.ok []) }

/-- TRANSACT with something to write or read completes at IDLE (R33, R104, R96): REQ is latched, and from the operation's start
a packet payload that would reach 2^32 bytes is an InvalidArgument, any other transaction goes to its SET_REGISTER write.
Nothing else changes. -/
def Obligations.TransactIsAccepted : Prop :=
  ∀ (s : State) (w : List Byte) (n d : Nat), s.seq = .idle → s.scope = .closed → w ≠ [] ∨ n ≠ 0 →
    let r : Request := { bareRequest 7 with wbytes := w, rdLen := n, dummy := d }
    exec (.transact w n d) s = .next { s with req := some r, seq := .start } ∧
    (40 + (w.length + paddingOf w.length) < 2 ^ 32 →
      proceed (accepted r s) = { s with req := some r, seq := .frame ⟨w, n, d⟩ }) ∧
    (2 ^ 32 ≤ 40 + (w.length + paddingOf w.length) →
      proceed (accepted r s) = { s with req := some r, seq := .emit (.err (.invalidArgument (.wbytes w))) })

/-- A request presented while the block is busy is not accepted and not dropped: executed there it stays on the port, and a
step of the busy block leaves it there and does not touch REQ but to end the running request (R144, R152). -/
def Obligations.RequestsAreHeldWhileBusy : Prop :=
  ∀ (s : State) (r : Request), s.seq ≠ .idle →
    (∀ i, encode i = .request r → exec i s = .next { s with port := .request r :: s.port }) ∧
    (∀ rest t, s.port = .request r :: rest → step s = .next t →
      t.port = s.port ∧ (t.req = s.req ∨ (t.req = none ∧ t.seq = .idle)))

/-! ### Session actions -/

/-- R150: Open is taken at IDLE, closes a held handle first, and leaves the session open with `OK([])` or closed with
NotFound. Close is taken at any step boundary and leaves the session closed. That a busy block leaves an Open on the port is
the model's reading (log 11), and so is that closing and opening take one step (log 25). -/
def Obligations.SessionActions : Prop :=
  ∀ s : State,
    (s.seq = .idle →
      let a := (answerOpen s).1
      let ev := (if s.session = .opened then Event.closed :: s.events else s.events)
      (a = .opened → exec .openSession s = .next { s with
        session := .opened
        result := some (.ok [])
        env := (answerOpen s).2
        events := .opened s.cfg.vendorId s.cfg.productId a :: ev }) ∧
      (a = .notFound → exec .openSession s = .next { s with
        session := .closed
        result := some (.err (.notFound s.cfg.vendorId s.cfg.productId))
        env := (answerOpen s).2
        events := .opened s.cfg.vendorId s.cfg.productId a :: ev })) ∧
    (s.seq ≠ .idle → exec .openSession s = .next { s with port := .session 0 :: s.port }) ∧
    exec .closeSession s = .next { s with session := .closed, events := .closed :: s.events }

/-! ### Wire commands and flash command frames: where each one completes -/

/-- The three wire commands complete in every state: one UsbWrite of `Encode(command, payload)`, SEQ right behind it with the
transport's answer, and nothing else changed but what the environment makes of the packet. Where the transport takes the whole
packet the answer's read follows for READ_DATA and READ_REGISTER, and no read for SET_REGISTER, which ends RESET (R33, R101 to
R103, R120). -/
def Obligations.WireCommandsWriteTheirPackets : Prop :=
  ∀ (s : State) (p : List Byte),
    (∃ t, t = { s with
        env := (answerWrite (encodePacket 0x00020000 p) s).2
        events := .wrote (encodePacket 0x00020000 p) s.cfg.timeoutMs (answerWrite (encodePacket 0x00020000 p) s).1 :: s.events
        seq := .wrote (8 + p.length) (answerWrite (encodePacket 0x00020000 p) s).1 .returnEmpty } ∧
      exec (.setRegister p) s = .next t ∧
      (takesPacket (encodePacket 0x00020000 p) s → proceed t = { t with seq := .emit (.ok []) })) ∧
    (∃ t, t = { s with
        env := (answerWrite [0x01, 0x00, 0x02, 0x00, 0x00, 0x00, 0x00, 0x00] s).2
        events := .wrote [0x01, 0x00, 0x02, 0x00, 0x00, 0x00, 0x00, 0x00] s.cfg.timeoutMs
          (answerWrite [0x01, 0x00, 0x02, 0x00, 0x00, 0x00, 0x00, 0x00] s).1 :: s.events
        seq := .wrote 8 (answerWrite [0x01, 0x00, 0x02, 0x00, 0x00, 0x00, 0x00, 0x00] s).1 .recvBlock } ∧
      exec .readRegister s = .next t ∧
      (takesPacket [0x01, 0x00, 0x02, 0x00, 0x00, 0x00, 0x00, 0x00] s → proceed t = { t with seq := .recvBlock })) ∧
    (∃ t, t = { s with
        env := (answerWrite [0x02, 0x00, 0x02, 0x00, 0x00, 0x00, 0x00, 0x00] s).2
        events := .wrote [0x02, 0x00, 0x02, 0x00, 0x00, 0x00, 0x00, 0x00] s.cfg.timeoutMs
          (answerWrite [0x02, 0x00, 0x02, 0x00, 0x00, 0x00, 0x00, 0x00] s).1 :: s.events
        seq := .wrote 8 (answerWrite [0x02, 0x00, 0x02, 0x00, 0x00, 0x00, 0x00, 0x00] s).1 .recvData } ∧
      exec .readDataPkt s = .next t ∧
      (takesPacket [0x02, 0x00, 0x02, 0x00, 0x00, 0x00, 0x00, 0x00] s → proceed t = { t with seq := .recvData }))

/-- The eight flash command frames RDID, RDUID, FAST_READ, WREN, RDSR, WRDI, BLOCK_ERASE_64KB and PAGE_PROGRAM complete in
every state, each the TRANSACT of its triple (R80, R81, R112): the descriptor and a fresh Register Block are built, one
SET_REGISTER packet `Serialize(RB) ‖ Wp` is written, SEQ stands right behind it with the transport's answer, and nothing else
changes but what the environment makes of the packet. Where the transport takes the whole packet, READ_DATA follows if the
frame reads, else READ_REGISTER. A PAGE_PROGRAM whose packet cannot be encoded raises InvalidArgument instead (R96). -/
def Obligations.FramesWriteTheirRegisterBlock : Prop :=
  ∀ (s : State) (i : Instr) (f : Frame), encode i = .frame f →
    (frameTooLong f = true → exec i s = .next (raiseErr (.invalidArgument (.wbytes f.wbytes)) s)) ∧
    (frameTooLong f = false → ∃ t, t = { s with
        td := describe f.wbytes.length f.rdLen f.dummy
        rb := transactBlock s.cfg (describe f.wbytes.length f.rdLen f.dummy)
        env := (answerWrite (setPacket s.cfg f) s).2
        events := .wrote (setPacket s.cfg f) s.cfg.timeoutMs (answerWrite (setPacket s.cfg f) s).1 :: s.events
        seq := .wrote (48 + f.wbytes.length + paddingOf f.wbytes.length) (answerWrite (setPacket s.cfg f) s).1
          (if f.rdLen ≠ 0 then .askData else .askBlock) } ∧
      exec i s = .next t ∧
      (takesPacket (setPacket s.cfg f) s →
        proceed t = { t with
          data := []
          seq := if f.rdLen ≠ 0 then .packet [0x02, 0x00, 0x02, 0x00, 0x00, 0x00, 0x00, 0x00]
            else .packet [0x01, 0x00, 0x02, 0x00, 0x00, 0x00, 0x00, 0x00] }))

/-- A wire command or flash command whose write the transport fails or cuts short raises that error with no further packet and
none sent again (R99, R133, R134): behind the write, outside a scope the operation goes to the error's emission; in the body
the scope's exit goes to its first poll; in the exit the pending error, or else this one, is emitted. -/
def Obligations.FailedWritesRaiseAtOnce : Prop :=
  ∀ (s : State) (i : Instr) (raw : List Byte) (e : Err),
    (∃ p, i = .setRegister p ∧ raw = encodePacket 0x00020000 p) ∨ (i = .readRegister ∧ raw = readRegisterPacket) ∨
      (i = .readDataPkt ∧ raw = readDataPacket) ∨
      (∃ f, encode i = .frame f ∧ frameTooLong f = false ∧ raw = setPacket s.cfg f) →
    ((∃ k, (answerWrite raw s).1 = .failed k ∧ e = .transportError k) ∨
      (∃ n, (answerWrite raw s).1 = .count n ∧ n ≠ raw.length ∧ e = .shortWrite raw.length n)) →
    ∃ t, exec i s = .next t ∧
      t.events = .wrote raw s.cfg.timeoutMs (answerWrite raw s).1 :: s.events ∧ t.env = (answerWrite raw s).2 ∧
      (s.scope = .closed → proceed t = { t with seq := .emit (.err e) }) ∧
      (s.scope = .body → proceed t = { t with scope := .polling, pendingErr := some e, seq := .frame ⟨[0x05], 1, 0⟩ }) ∧
      (s.scope = .polling ∨ s.scope = .closing →
        proceed t = { t with scope := .closed, pendingErr := none, seq := .emit (.err (s.pendingErr.getD e)) })

/-! ### What the answers do -/

/-- R113: the READ_DATA exchange reads exactly `RdTranCnt + 1` bytes, as the field reads after the write: one UsbRead of at
most 8 bytes more, and behind it an answer of that length becomes the transaction's data and the status read-back follows; an
answer of any other length raises LengthAccounting; what RecvPacket raises is raised. -/
def Obligations.ReadDataAnswerLength : Prop :=
  ∀ s : State,
    let n := fieldGet s.cfg s.rb .rdTranCnt + 1
    recvDataStep s = { s with
      env := (answerRead (8 + n) s).2
      events := .readUpTo (8 + n) s.cfg.timeoutMs (answerRead (8 + n) s).1 :: s.events
      seq := .gotData (answerRead (8 + n) s).1 } ∧
    ∀ a, s.seq = .gotData a →
      (∀ c p, checkRead a = .ok (c, p) → p.length = n →
        proceed s = { s with data := p, seq := .packet [0x01, 0x00, 0x02, 0x00, 0x00, 0x00, 0x00, 0x00] }) ∧
      (∀ c p, checkRead a = .ok (c, p) → p.length ≠ n → proceed s = raiseErr (.lengthAccounting n p.length) s) ∧
      (∀ e, checkRead a = .error e → proceed s = raiseErr e s)

/-- R114: one UsbRead of at most 48 bytes, and behind it the read-back block's whole Status word decides: equal to the
sentinel, the transaction returns its data; any other word raises StatusMismatch with it; a payload that is not 40 bytes
raises RegisterBlockLength; the other nine words are not examined. -/
def Obligations.StatusWordDecides : Prop :=
  ∀ s : State,
    recvBlockStep s = { s with
      env := (answerRead 48 s).2
      events := .readUpTo 48 s.cfg.timeoutMs (answerRead 48 s).1 :: s.events
      seq := .gotBlock (answerRead 48 s).1 } ∧
    ∀ a, s.seq = .gotBlock a →
      (∀ c p, checkRead a = .ok (c, p) → p.length ≠ 40 → proceed s = raiseErr (.registerBlockLength p.length) s) ∧
      (∀ c rb, checkRead a = .ok (c, serialize rb) →
        (statusWord s.cfg rb = s.cfg.sentinel → proceed s = returnTransact s.data s) ∧
        (statusWord s.cfg rb ≠ s.cfg.sentinel → proceed s = raiseErr (.statusMismatch (statusWord s.cfg rb)) s)) ∧
      (∀ e, checkRead a = .error e → proceed s = raiseErr e s)

/-! ### Error entry and the write-enable scope -/

/-- R134, R135: an error raised outside a scope makes no further transport call: the step in which it is raised emits
`RESULT = ERR(e)` and goes to IDLE, and the block then takes the next request as after OK. Bytes gathered so far are
discarded; that ACC and `data` are then empty and REQ none is the model's choice (log 10). The code of a result is that of its
kind in R131, 1 to 9, and 0 for OK (the numbers: decision D37). -/
def Obligations.ErrorEndsTheRequest : Prop :=
  (∀ v, resultCode (.ok v) = 0) ∧
  (∀ n m w k a,
    resultCode (.err (.malformedPacket n)) = 1 ∧ resultCode (.err (.lengthMismatch n m)) = 2 ∧
    resultCode (.err (.shortWrite n m)) = 3 ∧ resultCode (.err (.statusMismatch w)) = 4 ∧
    resultCode (.err (.lengthAccounting n m)) = 5 ∧ resultCode (.err (.registerBlockLength n)) = 6 ∧
    resultCode (.err (.transportError k)) = 7 ∧ resultCode (.err (.notFound n m)) = 8 ∧
    resultCode (.err (.invalidArgument a)) = 9) ∧
  (∀ (s : State) (e : Err), s.scope = .closed → raiseErr e s = { s with seq := .emit (.err e) }) ∧
  ∀ (s : State) (e : Err), (proceed s).seq = .emit (.err e) → s.port = [] →
    ∃ u, step s = .next u ∧ u.result = some (.err e) ∧ u.seq = .idle ∧ u.req = none ∧ u.acc = [] ∧ u.data = [] ∧
      u.events = s.events ∧ u.env = s.env ∧ u.scope = (proceed s).scope ∧ u.pendingErr = (proceed s).pendingErr ∧
      (∀ v, ∃ w, step { proceed s with seq := .emit (.ok v) } = .next w ∧ { w with result := u.result } = u)

/-- R124 to R127: the write-enable scope, line by line, around the body of ERASE_64KB, PROGRAM_PAGE and PROGRAM's chunk. WREN's
return opens the scope and starts the body, or raises the InvalidArgument of a body whose packet cannot be encoded, inside the
scope (that this check comes after WREN: log 28); the body's return or error starts the polls; a poll byte with WIP set polls
again, one with WIP clear goes to WRDI; WRDI's return closes the scope and raises the pending error, which also ends PROGRAM
with its remaining chunks (R130), or ends the operation; an error of a poll or of WRDI ends the exit at once, the body's
error before it. -/
def Obligations.WriteEnableScopeLines : Prop :=
  ∀ (s : State) (e : Err) (v : List Byte),
    (s.scope = .closed → ∀ a, currentOp s = some (.erase64kb a) →
      returnTransact v s =
        { s with scope := .body, pendingErr := none, seq := .frame ⟨0xD8 :: be24 a, 0, 0⟩ }) ∧
    (s.scope = .closed → ∀ a p w, (currentOp s = some (.programPage a p) ∧ w = 0x02 :: (be24 a ++ p)) ∨
        (∃ p0 n a0, currentOp s = some (.program a0 p0 n) ∧ a = a0 + s.k * n ∧ p = programChunk p0 n s.k ∧
          w = 0x02 :: (be24 a ++ p)) →
      (40 + (w.length + paddingOf w.length) < 2 ^ 32 →
        returnTransact v s = { s with scope := .body, pendingErr := none, seq := .frame ⟨w, 0, 0⟩ }) ∧
      (2 ^ 32 ≤ 40 + (w.length + paddingOf w.length) →
        returnTransact v s =
          { s with
            scope := .polling
            pendingErr := some (.invalidArgument (.wbytes w))
            seq := .frame ⟨[0x05], 1, 0⟩ })) ∧
    (s.scope = .closed → raiseErr e s = { s with seq := .emit (.err e) }) ∧
    (s.scope = .body →
      returnTransact v s = { s with scope := .polling, seq := .frame ⟨[0x05], 1, 0⟩ } ∧
      raiseErr e s = { s with scope := .polling, pendingErr := some e, seq := .frame ⟨[0x05], 1, 0⟩ }) ∧
    (s.scope = .polling → ∀ b,
      (b.getLsbD 0 = true → returnTransact [b] s = { s with pollByte := b, seq := .frame ⟨[0x05], 1, 0⟩ }) ∧
      (b.getLsbD 0 = false →
        returnTransact [b] s = { s with pollByte := b, scope := .closing, seq := .frame ⟨[0x04], 0, 0⟩ })) ∧
    (s.scope = .closing →
      (∀ a p, currentOp s = some (.erase64kb a) ∨ currentOp s = some (.programPage a p) → s.pendingErr = none →
        returnTransact v s = { s with scope := .closed, seq := .emit (.ok []) }) ∧
      (∀ e0, s.pendingErr = some e0 →
        returnTransact v s = { s with scope := .closed, pendingErr := none, seq := .emit (.err e0) })) ∧
    (s.scope = .polling ∨ s.scope = .closing →
      raiseErr e s = { s with
        scope := .closed
        pendingErr := none
        seq := .emit (.err (match s.pendingErr with | some e0 => e0 | none => e)) })

/-- The loops of PROGRAM and READ_DATA. R130 with R124: when WRDI has ended the scope of one chunk of a PROGRAM with no error
pending, K goes to the next chunk that is not all 0xFF, every chunk between being blank, and its PROGRAM_PAGE starts with WREN;
with no such chunk the operation ends with no bytes. R123: when a chunk of a READ_DATA returns, its bytes join ACC, and the
next chunk is read from `addr + len(ACC)`; with `length` bytes gathered the operation returns them, and with more it raises
LengthAccounting. -/
def Obligations.LoopsGoToTheirNextChunk : Prop :=
  (∀ (s : State) (a n : Nat) (p v : List Byte), s.scope = .closing → s.pendingErr = none →
    currentOp s = some (.program a p n) → n ≠ 0 → a + p.length ≤ 2 ^ 24 →
    ∃ k, s.k < k ∧
      (∀ j, s.k < j → j < k → j * n < p.length ∧ (programChunk p n j).all (fun b => b == 0xFF#8) = true) ∧
      ((k * n < p.length ∧ (programChunk p n k).all (fun b => b == 0xFF#8) = false ∧
        returnTransact v s = { s with scope := .closed, k := k, seq := .frame ⟨[0x06], 0, 0⟩ }) ∨
       (p.length ≤ k * n ∧ returnTransact v s = { s with scope := .closed, k := k, seq := .emit (.ok []) }))) ∧
  (∀ (s : State) (a n : Nat) (v : List Byte), s.scope = .closed → currentOp s = some (.readData a n) →
    let acc := s.acc ++ v
    (acc.length < n →
      returnTransact v s =
        { s with acc := acc, seq := .frame ⟨0x0B :: be24 (a + acc.length), min 0x50 (n - acc.length), 1⟩ }) ∧
    (acc.length = n → returnTransact v s = { s with acc := acc, seq := .emit (.ok acc) }) ∧
    (n < acc.length →
      returnTransact v s = { s with acc := acc, seq := .emit (.err (.lengthAccounting n acc.length)) }))

/-! ### Whole operations -/

/-- R104: a whole TRANSACT against a transport that takes its packets and answers well: three calls when it reads nothing,
five when it reads, in their order, and behind the last one it returns the READ_DATA answer's bytes, or `[]`. A TRANSACT
request ends with them: the next step emits `OK` of what is returned and makes no further call (R115, R39). -/
def Obligations.TransactRunsToItsReturn : Prop :=
  ∀ (s : State) (f : Frame) (d : List Byte) (back : RegBlock) (ws : List WriteAnswer) (rs : List ReadAnswer),
    s.seq = .frame f → frameEmpty f = false → frameTooLong f = false →
    statusWord s.cfg back = s.cfg.sentinel →
    let td := describe f.wbytes.length f.rdLen f.dummy
    let rb := transactBlock s.cfg td
    let set := setPacket s.cfg f
    let tm := s.cfg.timeoutMs
    (f.rdLen = 0 → Scripted s (.count set.length :: .count 8 :: ws) (blockAnswer back :: rs) →
      ∃ u, runSteps 3 s = .next u ∧ proceed u = returnTransact [] u ∧
        u = { s with
          td := td
          rb := rb
          data := []
          seq := .gotBlock (blockAnswer back)
          env := { s.env with oracle := { s.env.oracle with writes := ws, reads := rs } }
          events := .readUpTo 48 tm (blockAnswer back) :: .wrote readRegisterPacket tm (.count 8) ::
            .wrote set tm (.count set.length) :: s.events } ∧
        (s.scope = .closed → (∃ w m k, currentOp s = some (.transact w m k)) →
          proceed u = { u with seq := .emit (.ok []) } ∧
          ∃ t, step u = .next t ∧ t.seq = .idle ∧ t.result = some (.ok []) ∧ t.events = u.events ∧ t.env = u.env)) ∧
    (f.rdLen ≠ 0 → d.length = fieldGet s.cfg rb .rdTranCnt + 1 → d.length < 2 ^ 32 →
      Scripted s (.count set.length :: .count 8 :: .count 8 :: ws) (dataAnswer d :: blockAnswer back :: rs) →
      ∃ u, runSteps 5 s = .next u ∧ proceed u = returnTransact d u ∧
        u = { s with
          td := td
          rb := rb
          data := d
          seq := .gotBlock (blockAnswer back)
          env := { s.env with oracle := { s.env.oracle with writes := ws, reads := rs } }
          events := .readUpTo 48 tm (blockAnswer back) :: .wrote readRegisterPacket tm (.count 8) ::
            .readUpTo (8 + d.length) tm (dataAnswer d) :: .wrote readDataPacket tm (.count 8) ::
            .wrote set tm (.count set.length) :: s.events } ∧
        (s.scope = .closed → (∃ w m k, currentOp s = some (.transact w m k)) →
          proceed u = { u with seq := .emit (.ok d) } ∧
          ∃ t, step u = .next t ∧ t.seq = .idle ∧ t.result = some (.ok d) ∧ t.events = u.events ∧ t.env = u.env))

/-- R120: RESET writes one SET_REGISTER packet carrying the block alone, reads nothing back and returns `[]`; its 48 bytes
are the example's; a write that fails or falls short is its error. -/
def Obligations.ResetWritesOnePacket : Prop :=
  ∀ (s : State) (t v p : Nat) (ws : List WriteAnswer) (rs : List ReadAnswer) (a : WriteAnswer),
    s.cfg = defaultConfigWith t v p → s.scope = .closed → Scripted s (a :: ws) rs →
    let raw : List Byte :=
      [0x00, 0x00, 0x02, 0x00, 0x28, 0x00, 0x00, 0x00,
       0x07, 0x00, 0x00, 0x00, 0x80, 0x07, 0x02, 0x00, 0x00, 0x00, 0x00, 0x07, 0x00, 0x00, 0x00, 0x00,
       0x00, 0x00, 0x00, 0x00, 0x00, 0x00, 0x00, 0x00, 0x00, 0x40, 0x40, 0x00, 0x00, 0x00, 0x00, 0x00,
       0x00, 0x00, 0x00, 0x00, 0x00, 0x00, 0x00, 0x00]
    ∃ u, runSteps 3 (s.withEncoded (encode .reset)) = .next u ∧ u.seq = .idle ∧
      u.events = .wrote raw t a :: s.events ∧
      (a = .count 48 → u.result = some (.ok [])) ∧
      (∀ k, a = .failed k → u.result = some (.err (.transportError k))) ∧
      (∀ n, a = .count n → n ≠ 48 → u.result = some (.err (.shortWrite 48 n)))

/-- R121 and R122 under the default configuration: READ_ID returns the three bytes, READ_UID the sixteen bytes, that the
device answers, whatever they are, after the five transport calls of their transaction; READ_ID's SET_REGISTER packet is
V-PK15's. The block's bytes rest on the default parameters (decisions D3 to D6, log 6). -/
def Obligations.IdentificationReturnsTheAnswer : Prop :=
  ∀ (s : State) (t v p : Nat) (d : List Byte) (back : RegBlock) (ws : List WriteAnswer) (rs : List ReadAnswer),
    s.cfg = defaultConfigWith t v p → s.scope = .closed → back.x6 = 0x00404000#32 →
    Scripted s (.count 52 :: .count 8 :: .count 8 :: ws) (dataAnswer d :: blockAnswer back :: rs) →
    (d.length = 3 →
      ∃ u, runSteps 7 (s.withEncoded (encode .readId)) = .next u ∧ u.seq = .idle ∧ u.result = some (.ok d) ∧
        u.events = .readUpTo 48 t (blockAnswer back) :: .wrote readRegisterPacket t (.count 8) ::
          .readUpTo 11 t (dataAnswer d) :: .wrote readDataPacket t (.count 8) ::
          .wrote
            [0x00, 0x00, 0x02, 0x00, 0x2C, 0x00, 0x00, 0x00,
             0x00, 0x00, 0x00, 0x00, 0x80, 0x07, 0x02, 0x00, 0x02, 0x00, 0x00, 0x03, 0x00, 0x00, 0x00, 0x00,
             0x00, 0x00, 0x00, 0x00, 0x00, 0x00, 0x00, 0x00, 0x00, 0x40, 0x40, 0x00, 0x00, 0x00, 0x00, 0x00,
             0x00, 0x00, 0x00, 0x00, 0x00, 0x00, 0x00, 0x00, 0x9F, 0xFF, 0xFF, 0xFF] t (.count 52) :: s.events) ∧
    (d.length = 16 →
      ∃ u, runSteps 7 (s.withEncoded (encode .readUid)) = .next u ∧ u.seq = .idle ∧ u.result = some (.ok d) ∧
        u.events = (transactionCalls s.cfg ⟨[0x4B], 16, 4⟩ d back).reverse ++ s.events)

/-- R123 under the default configuration: READ_DATA of a range inside 24 bits returns exactly `length` bytes, the
concatenation of its chunks' answers. Its transport calls are those of one FAST_READ transaction for each chunk in order:
chunk `j`, at most 0x50 bytes, is read from `addr + 0x50 · j`. -/
def Obligations.ReadDataReturnsItsChunks : Prop :=
  ∀ (s : State) (t v p a : Nat) (d : List Byte) (back : RegBlock) (ws : List WriteAnswer) (rs : List ReadAnswer),
    s.cfg = defaultConfigWith t v p → s.scope = .closed → back.x6 = 0x00404000#32 →
    a < 2 ^ 24 → a + d.length ≤ 2 ^ 24 →
    Scripted s ((List.range (chunkCount d)).flatMap (fun _ => shortWrites true) ++ ws)
      ((List.range (chunkCount d)).flatMap (fun j => [dataAnswer (readChunk d j), blockAnswer back]) ++ rs) →
    ∃ u, runSteps (5 * ((d.length + 79) / 80) + 2) (s.withEncoded (encode (.readData a d.length))) = .next u ∧
      u.seq = .idle ∧ u.result = some (.ok d) ∧ u.env.oracle.writes = ws ∧ u.env.oracle.reads = rs ∧
      u.events =
        ((List.range ((d.length + 79) / 80)).flatMap (fun j =>
          transactionCalls s.cfg ⟨0x0B :: be24 (a + 80 * j), (readChunk d j).length, 1⟩ (readChunk d j) back)).reverse
          ++ s.events

/-- R126, R137: the poll has no bound. However many RDSR answers in a row have WIP set, five steps each later the block goes
to the next poll, inside the scope, having made the RDSR transactions' calls and no other, with no result emitted. -/
def Obligations.PollsAsLongAsBusy : Prop :=
  ∀ (s : State) (t v p : Nat) (bs : List Byte) (back : RegBlock) (ws : List WriteAnswer) (rs : List ReadAnswer),
    s.cfg = defaultConfigWith t v p → (proceed s).seq = .frame ⟨[0x05], 1, 0⟩ → (proceed s).scope = .polling →
    back.x6 = 0x00404000#32 → (∀ b ∈ bs, b.getLsbD 0 = true) →
    Scripted s (bs.flatMap (fun _ => shortWrites true) ++ ws) (bs.flatMap (pollReads back) ++ rs) →
    ∃ u, runSteps (5 * bs.length) s = .next u ∧ (proceed u).seq = .frame ⟨[0x05], 1, 0⟩ ∧ (proceed u).scope = .polling ∧
      u.result = s.result ∧ u.req = s.req ∧ (proceed u).pendingErr = (proceed s).pendingErr ∧ Scripted u ws rs ∧
      u.events = (bs.flatMap (fun b => transactionCalls s.cfg ⟨[0x05], 1, 0⟩ [b] back)).reverse ++ s.events

/-- R124, R128 under the default configuration: ERASE_64KB makes the transport calls of WREN, of the 0xD8 transaction, of as
many RDSR polls as the flash is busy and one more, and of WRDI, in that order, whatever the body's Status word is: the sentinel
ends it with `OK([])`, any other word with StatusMismatch, after the same exit. -/
def Obligations.EraseRunsItsBracket : Prop :=
  ∀ (s : State) (t v p a : Nat) (bs : List Byte) (b : Byte) (back body : RegBlock) (ws : List WriteAnswer)
    (rs : List ReadAnswer),
    s.cfg = defaultConfigWith t v p → s.scope = .closed → s.pendingErr = none → a < 2 ^ 24 →
    back.x6 = 0x00404000#32 → (∀ x ∈ bs, x.getLsbD 0 = true) → b.getLsbD 0 = false →
    Scripted s
      (shortWrites false ++ shortWrites false ++ (bs ++ [b]).flatMap (fun _ => shortWrites true) ++ shortWrites false ++ ws)
      ([blockAnswer back, blockAnswer body] ++ (bs ++ [b]).flatMap (pollReads back) ++ [blockAnswer back] ++ rs) →
    ∃ u, runSteps (5 * bs.length + 16) (s.withEncoded (encode (.erase64kb a))) = .next u ∧ u.seq = .idle ∧
      u.scope = .closed ∧ u.pendingErr = none ∧ u.pollByte = b ∧
      (body.x6 = 0x00404000#32 → u.result = some (.ok [])) ∧
      (body.x6 ≠ 0x00404000#32 → u.result = some (.err (.statusMismatch body.x6))) ∧
      u.env.oracle.writes = ws ∧ u.env.oracle.reads = rs ∧
      u.events =
        (transactionCalls s.cfg ⟨[0x06], 0, 0⟩ [] back ++ transactionCalls s.cfg ⟨0xD8 :: be24 a, 0, 0⟩ [] body ++
          (bs ++ [b]).flatMap (fun x => transactionCalls s.cfg ⟨[0x05], 1, 0⟩ [x] back) ++
          transactionCalls s.cfg ⟨[0x04], 0, 0⟩ [] back).reverse ++ s.events

/-- S12 with R68 and R128: in the reference environment ERASE_64KB takes 24 transport calls, leaves every byte of the 64 KB
block that holds its address at 0xFF and every other byte of the flash as it was, the write-enable latch clear and the
flash idle. In a state whose bridge still owes an earlier answer, that the run's reads get their own answers is the model's
choice (log 30). -/
def Obligations.EraseClearsItsBlock : Prop :=
  ∀ (s : State) (a : Nat), ReferenceReady s → s.scope = .closed → s.pendingErr = none → a < 2 ^ 24 →
    ∃ u, runSteps 26 (s.withEncoded (encode (.erase64kb a))) = .next u ∧ u.seq = .idle ∧ u.result = some (.ok []) ∧
      u.env.ref.flash.wel = false ∧ u.env.ref.flash.busy = 0 ∧
      (∀ x, x < 2 ^ 24 → flashByte u x = if x / 65536 = a / 65536 then 0xFF#8 else flashByte s x) ∧
      ∃ new, u.events = new ++ s.events ∧ new.length = 24

/-- S13 with R68 and R129: in the reference environment PROGRAM_PAGE of a payload inside one page takes 19 transport calls,
clears exactly the payload's zero bits in the bytes from its address on, and leaves every other byte of the flash as it
was. In a state whose bridge still owes an earlier answer, that the run's reads get their own answers is the model's choice
(log 30). -/
def Obligations.ProgramPageClearsBits : Prop :=
  ∀ (s : State) (a : Nat) (p : List Byte), ReferenceReady s → s.scope = .closed → s.pendingErr = none → a < 2 ^ 24 →
    a % 256 + p.length ≤ 256 →
    ∃ u, runSteps 21 (s.withEncoded (encode (.programPage a p))) = .next u ∧ u.seq = .idle ∧
      u.result = some (.ok []) ∧ u.env.ref.flash.wel = false ∧ u.env.ref.flash.busy = 0 ∧
      (∀ j, j < p.length → flashByte u (a + j) = flashByte s (a + j) &&& p.getD j 0) ∧
      (∀ x, x < 2 ^ 24 → x < a ∨ a + p.length ≤ x → flashByte u x = flashByte s x) ∧
      ∃ new, u.events = new ++ s.events ∧ new.length = 19

/-- R130 and S9: a PROGRAM of an in-range payload that is all 0xFF sends no packet and returns `[]`, for every page size but
0, with or without a session. -/
def Obligations.BlankProgramSendsNothing : Prop :=
  ∀ (s : State) (a n m : Nat), s.port = [] → s.scope = .closed → n ≠ 0 → a < 2 ^ 24 → a + m ≤ 2 ^ 24 →
    ∃ u, runSteps 2 (s.withEncoded (encode (.program a (List.replicate m 0xFF#8) n))) = .next u ∧
      u.seq = .idle ∧ u.result = some (.ok []) ∧ u.events = s.events ∧ u.env = s.env

/-- R130: PROGRAM's chunks cover the payload exactly: the chunks 0 to K - 1 together are the payload as soon as the loop's
test ends it, and each chunk but the last has `page_size` bytes. -/
def Obligations.ProgramChunksCoverThePayload : Prop :=
  ∀ (p : List Byte) (n k : Nat), n ≠ 0 → p.length ≤ k * n →
    (List.range k).flatMap (programChunk p n) = p ∧
    ∀ j, (j + 1) * n ≤ p.length → (programChunk p n j).length = n

/-- R46: READ_DATA, PROGRAM, ERASE_64KB and PROGRAM_PAGE of a flash range beyond 24 bits are refused with InvalidArgument and
no packet is sent. -/
def Obligations.RangesBeyond24BitsAreRefused : Prop :=
  ∀ (s : State) (i : Instr) (bad : BadArg), s.port = [] → s.scope = .closed →
    (∃ a n, i = .readData a n ∧ ¬(a < 2 ^ 24 ∧ a + n ≤ 2 ^ 24) ∧ bad = .range a n) ∨
    (∃ a p n, i = .program a p n ∧ n ≠ 0 ∧ ¬(a < 2 ^ 24 ∧ a + p.length ≤ 2 ^ 24) ∧ bad = .range a p.length) ∨
    (∃ a, i = .erase64kb a ∧ ¬a < 2 ^ 24 ∧ bad = .addr a) ∨
    (∃ a p, i = .programPage a p ∧ ¬a < 2 ^ 24 ∧ bad = .addr a) →
    ∃ u, runSteps 2 (s.withEncoded (encode i)) = .next u ∧ u.seq = .idle ∧
      u.result = some (.err (.invalidArgument bad)) ∧ u.events = s.events ∧ u.env = s.env

/-- R151 item 2: with no session, a request that exchanges packets fails at its first write with `TransportError(IO)`. That
this is one recorded call, of the request's first SET_REGISTER packet, with nothing reaching the environment is the model's
reading of decision D43 (log 5). -/
def Obligations.NoSessionFailsTheFirstCall : Prop :=
  ∀ (s : State) (i : Instr) (raw : List Byte), s.port = [] → s.scope = .closed → s.session = .closed →
    (i = .reset ∧ raw = encodePacket 0x00020000 (serialize (resetBlock s.cfg))) ∨
      (i = .readId ∧ raw = setPacket s.cfg ⟨[0x9F], 3, 0⟩) ∨ (i = .readUid ∧ raw = setPacket s.cfg ⟨[0x4B], 16, 4⟩) ∨
      (∃ a n, i = .readData a n ∧ a < 2 ^ 24 ∧ a + n ≤ 2 ^ 24 ∧ n ≠ 0 ∧
        raw = setPacket s.cfg ⟨0x0B :: be24 a, min 0x50 n, 1⟩) ∨
      (((∃ a, i = .erase64kb a ∧ a < 2 ^ 24) ∨ (∃ a p, i = .programPage a p ∧ a < 2 ^ 24) ∨
        (∃ a p n, i = .program a p n ∧ n ≠ 0 ∧ a < 2 ^ 24 ∧ a + p.length ≤ 2 ^ 24 ∧ ∃ b ∈ p, b ≠ 0xFF#8)) ∧
        raw = setPacket s.cfg ⟨[0x06], 0, 0⟩) ∨
      (∃ w r d, i = .transact w r d ∧ (w ≠ [] ∨ r ≠ 0) ∧ 40 + (w.length + paddingOf w.length) < 2 ^ 32 ∧
        raw = setPacket s.cfg ⟨w, r, d⟩) →
    ∃ u, runSteps 3 (s.withEncoded (encode i)) = .next u ∧ u.seq = .idle ∧
      u.result = some (.err (.transportError .io)) ∧ u.env = s.env ∧
      u.events = .wrote raw s.cfg.timeoutMs (.failed .io) :: s.events

/-- R150 with decision D43: a Close presented while a poll is about to start is taken at once; the poll's write then fails,
the exit ends on that error without WRDI, and the request ends with the body's error, or else with `TransportError(IO)`. That
Close takes a step of its own is the model's reading (log 12), and so is that the failed write is recorded with the
environment untouched (log 5). -/
def Obligations.CloseEndsThePoll : Prop :=
  ∀ s : State, (proceed s).seq = .frame ⟨[0x05], 1, 0⟩ → (proceed s).scope = .polling → s.port = [.session 1] →
    ∃ u, runSteps 3 s = .next u ∧ u.seq = .idle ∧ u.session = .closed ∧ u.scope = .closed ∧ u.pendingErr = none ∧
      u.result = some (.err ((proceed s).pendingErr.getD (.transportError .io))) ∧
      u.events = .wrote (setPacket s.cfg ⟨[0x05], 1, 0⟩) s.cfg.timeoutMs (.failed .io) :: .closed :: s.events ∧
      u.env = s.env

/-! ### Invariants of every step -/

/-- R147, R43: the machine right after reset: waiting, with no request, no result, no session, no scope and no pending error,
and with nothing presented it goes on waiting. -/
def Obligations.ResetState : Prop :=
  State.reset.seq = .idle ∧ State.reset.result = none ∧ State.reset.session = .closed ∧ State.reset.scope = .closed ∧
  State.reset.pendingErr = none ∧ State.reset.req = none ∧ step State.reset = .next State.reset

/-- The sequencer's invariant and the half-duplex order hold at reset. -/
def Obligations.InvariantsHoldAtReset : Prop :=
  SequencerInv State.reset ∧ HalfDuplex State.reset

/-- From every state with the sequencer's invariant a step answers a next state, never a fault or a refusal, and the
invariant holds there: idle means no scope, no pending error and no request; an accepted request is latched; scopes are open
only in the three mutating operations (R38); every transaction line can be sent (R96); every packet line is a wire command
(R82); the flash array keeps its canonical form. -/
def Obligations.EveryStepKeepsTheInvariant : Prop :=
  ∀ s : State, SequencerInv s → ∃ t, step s = .next t ∧ SequencerInv t

/-- R59: every UsbRead of an answer follows the UsbWrite of the request it answers; every step keeps it. -/
def Obligations.EveryStepKeepsHalfDuplex : Prop :=
  ∀ s t : State, HalfDuplex s → step s = .next t → HalfDuplex t

/-- R7: no step changes an OPEN parameter. -/
def Obligations.ParametersNeverChange : Prop :=
  ∀ s t : State, step s = .next t → t.cfg = s.cfg ∧ t.env.kind = s.env.kind

/-- R33, R59, R55: a step makes at most one UsbWrite or UsbRead, a session action makes its own calls, and no earlier call is
undone or reordered: the events of the past stay. In a state with the sequencer's invariant a step is exactly one of: accepting
a request at IDLE, one UsbWrite, one UsbRead, emitting the result, a session action, or waiting at IDLE, and a call leaves SEQ
right behind it. That a session action is a step of its own is the model's reading (log 12). -/
def Obligations.OneTransportCallEachStep : Prop :=
  (∀ s t : State, step s = .next t →
    t.events = s.events ∨
    (∃ raw a, t.events = .wrote raw s.cfg.timeoutMs a :: s.events) ∨
    (∃ m a, t.events = .readUpTo m s.cfg.timeoutMs a :: s.events) ∨
    (∃ b rest, s.port = .session b :: rest ∧
      (t.events = .closed :: s.events ∨
        ∃ a, t.events = .opened s.cfg.vendorId s.cfg.productId a :: s.events ∨
          t.events = .opened s.cfg.vendorId s.cfg.productId a :: .closed :: s.events))) ∧
  (∀ s t : State, SequencerInv s → step s = .next t →
    (s.seq = .idle ∧ t.events = s.events ∧ ∃ r rest, s.port = .request r :: rest ∧ t.port = rest ∧ t.req ≠ none ∧
      (t.seq = .start ∨ t.seq = .emit (.ok []))) ∨
    (∃ raw a next, t.events = .wrote raw s.cfg.timeoutMs a :: s.events ∧ t.seq = .wrote raw.length a next) ∨
    (∃ m a, t.events = .readUpTo m s.cfg.timeoutMs a :: s.events ∧ (t.seq = .gotData a ∨ t.seq = .gotBlock a)) ∨
    (s.seq ≠ .idle ∧ t.seq = .idle ∧ t.events = s.events ∧ ∃ r, t.result = some r) ∨
    (∃ b rest, s.port = .session b :: rest ∧ t.port = rest ∧ t.seq = s.seq) ∨
    (s.seq = .idle ∧ (t = s ∨ ∃ rest, s.port = .nothing :: rest ∧ t = { s with port := rest })))

/-- R40: SESSION changes only by a session action taken off the port. -/
def Obligations.SessionChangesOnlyBySessionActions : Prop :=
  ∀ s t : State, step s = .next t → t.session ≠ s.session →
    ∃ b rest, s.port = .session b :: rest ∧ t.port = rest ∧ (b = 1 → t.session = .closed) ∧ (b = 0 → s.seq = .idle)

/-- R39, R150: RESULT is written in the step that returns SEQ to IDLE, with the value being emitted, and by Open, and by no
other step. -/
def Obligations.ResultIsWrittenAtTheEnd : Prop :=
  ∀ s t : State, step s = .next t → t.result ≠ s.result →
    (∃ r, (proceed s).seq = .emit r ∧ t.result = some r ∧ t.seq = .idle) ∨
    (s.seq = .idle ∧ ∃ rest, s.port = .session 0 :: rest)

/-- R36: while a request runs, no step changes REQ but the one that emits its result. -/
def Obligations.RequestLatchIsStable : Prop :=
  ∀ s t : State, step s = .next t → s.seq ≠ .idle →
    t.req = s.req ∨ (∃ r, (proceed s).seq = .emit r ∧ t.seq = .idle ∧ t.result = some r)

/-- R17, R148: what an earlier request or transaction left behind changes nothing. Two states that agree on all but that
take, step by step, the same transport calls, and agree again; and they emit the same results. -/
def Obligations.EarlierRequestsLeaveNoTrace : Prop :=
  ∀ s t s' : State, SequencerInv s → Agree s t → step s = .next s' →
    ∃ t' new, step t = .next t' ∧ Agree s' t' ∧ s'.events = new ++ s.events ∧ t'.events = new ++ t.events ∧
      (s'.result = t'.result ∨ (s'.result = s.result ∧ t'.result = t.result))

/-! ### The reference flash -/

/-- No byte of the reference flash changes by a request's acceptance, a session action, READ_REGISTER, READ_DATA, or a frame
other than BLOCK_ERASE_64KB and PAGE_PROGRAM, whatever the parameters, in whichever environment (R68). Over the reference
flash with the default configuration the transactions that read return what R68 says: an idle flash answers RDID with the
JEDEC bytes, RDUID with the sixteen UID bytes and FAST_READ with the bytes it holds from the address on (addresses mod 2^24), a
busy one answers these with 0xFF; RDSR returns the WIP and WEL bits and uses up one busy answer; nothing else of the flash
changes. WREN sets the write-enable latch of an idle flash and WRDI clears it, and neither does anything to a busy one. Three
things are the model's choice and not the spec's: that a read gets its own request's answer where the bridge still owes an
earlier one (log 30); and, under parameters that change what a frame drives, what the bridge does with an unknown TransMode or
a write string shorter than its count (log 20) and with a frame of no bytes (log 21). -/
def Obligations.FlashReadsAnswerAndStoreNothing : Prop :=
  (∀ (s t : State) (i : Instr), exec i s = .next t →
    (∀ p, i ≠ .setRegister p) → (∀ a, i ≠ .blockErase64kb a) → (∀ a p, i ≠ .pageProgram a p) →
    ∀ x, flashByte t x = flashByte s x) ∧
  (∀ s : State, ReferenceBehind s → s.env.ref.flash.busy = 0 →
    ReturnsFromFlash s ⟨[0x9F], 3, 0⟩ [0xEF, 0x40, 0x18] s.env.ref.flash ∧
    ReturnsFromFlash s ⟨[0x4B], 16, 4⟩
      [0xA0, 0xA1, 0xA2, 0xA3, 0xA4, 0xA5, 0xA6, 0xA7, 0xA8, 0xA9, 0xAA, 0xAB, 0xAC, 0xAD, 0xAE, 0xAF] s.env.ref.flash ∧
    ∀ a n, a < 2 ^ 24 → 1 ≤ n → n ≤ 512 →
      ReturnsFromFlash s ⟨0x0B :: be24 a, n, 1⟩ ((List.range n).map (fun i => flashByte s (a + i))) s.env.ref.flash) ∧
  (∀ s : State, ReferenceBehind s → s.env.ref.flash.busy ≠ 0 →
    ReturnsFromFlash s ⟨[0x9F], 3, 0⟩ (List.replicate 3 0xFF) s.env.ref.flash ∧
    ReturnsFromFlash s ⟨[0x4B], 16, 4⟩ (List.replicate 16 0xFF) s.env.ref.flash ∧
    ∀ a n, a < 2 ^ 24 → 1 ≤ n → n ≤ 512 →
      ReturnsFromFlash s ⟨0x0B :: be24 a, n, 1⟩ (List.replicate n 0xFF) s.env.ref.flash) ∧
  (∀ s : State, ReferenceBehind s →
    ∃ b : Byte, b.toNat = (if s.env.ref.flash.busy = 0 then 0 else 1) + (if s.env.ref.flash.wel then 2 else 0) ∧
      ReturnsFromFlash s ⟨[0x05], 1, 0⟩ [b] { s.env.ref.flash with busy := s.env.ref.flash.busy - 1 }) ∧
  (∀ s : State, ReferenceBehind s →
    (∃ t, exec .wren s = .next t ∧ t.env.ref.flash =
      if s.env.ref.flash.busy = 0 then { s.env.ref.flash with wel := true } else s.env.ref.flash) ∧
    ∃ t, exec .wrdi s = .next t ∧ t.env.ref.flash =
      if s.env.ref.flash.busy = 0 then { s.env.ref.flash with wel := false } else s.env.ref.flash)

/-- SET_REGISTER, BLOCK_ERASE_64KB and PAGE_PROGRAM change no byte of the reference flash outside those the frame their
payload drives to it may store to (R66, R68). The payload is the packet's: for the two frames, the transaction's block and
padded write string. Where the spec gives the bridge no effect, that no byte changes is the model's choice: a payload under 40
bytes or one of 2^32 bytes and more (whose packet Decode rejects, log 29), a TransMode code that is no mode, a write string
shorter than its count (log 20), a frame of no bytes (log 21), and a packet beyond MAX_PACKET (log 16) or without a session
(log 5). -/
def Obligations.StoresStayInsideTheFrame : Prop :=
  ∀ (s t : State) (i : Instr) (payload : List Byte) (x : Nat), s.env.ref.flash.mem.wf = true →
    (i = .setRegister payload ∨
      ∃ f, encode i = .frame f ∧
        payload = serialize (transactBlock s.cfg (describe f.wbytes.length f.rdLen f.dummy)) ++ padded f.wbytes) →
    exec i s = .next t →
    (∀ frame, drivenFrame s.cfg payload = some frame → ¬frameStores frame x) →
    flashByte t x = flashByte s x

/-- In the reference environment with the default configuration and an open session, BLOCK_ERASE_64KB of a 24-bit address
erases the 64 KB block that holds it where the flash is idle and write-enabled, clears the write-enable latch and makes the
flash busy for two polls; every other byte stays. With the latch clear or the flash busy it changes nothing of the flash (R66,
R68). -/
def Obligations.BlockEraseInTheFlash : Prop :=
  (∀ (s : State) (a : Nat), ReferenceReady s → s.env.ref.flash.wel = true → a < 2 ^ 24 →
    ∃ t, exec (.blockErase64kb a) s = .next t ∧ (proceed t).seq = .packet readRegisterPacket ∧
      t.env.ref.flash.wel = false ∧ t.env.ref.flash.busy = 2 ∧
      ∀ x, x < 2 ^ 24 → flashByte t x = if x / 65536 = a / 65536 then 0xFF#8 else flashByte s x) ∧
  (∀ (s : State) (a : Nat), ReferenceBehind s → s.env.ref.flash.wel = false ∨ s.env.ref.flash.busy ≠ 0 →
    ∃ t, exec (.blockErase64kb a) s = .next t ∧ (proceed t).seq = .packet readRegisterPacket ∧
      t.env.ref.flash = s.env.ref.flash)

/-- In the same setting, PAGE_PROGRAM of at most 256 bytes clears bits only where the flash is idle and write-enabled, byte `j`
of the data at `(a & 0xFFFF00) | ((a + j) & 0xFF)`, wrapping inside the page; every other byte stays. With the latch clear or
the flash busy it changes nothing of the flash (R66, R68). -/
def Obligations.PageProgramInTheFlash : Prop :=
  (∀ (s : State) (a : Nat) (p : List Byte), ReferenceReady s → s.env.ref.flash.wel = true → a < 2 ^ 24 → p.length ≤ 256 →
    ∃ t, exec (.pageProgram a p) s = .next t ∧ (proceed t).seq = .packet readRegisterPacket ∧
      t.env.ref.flash.wel = false ∧ t.env.ref.flash.busy = 1 ∧
      (∀ j, j < p.length →
        flashByte t (a / 256 * 256 + (a + j) % 256) = flashByte s (a / 256 * 256 + (a + j) % 256) &&& p.getD j 0) ∧
      (∀ x, x < 2 ^ 24 → (∀ j, j < p.length → x ≠ a / 256 * 256 + (a + j) % 256) → flashByte t x = flashByte s x)) ∧
  (∀ (s : State) (a : Nat) (p : List Byte), ReferenceBehind s → s.env.ref.flash.wel = false ∨ s.env.ref.flash.busy ≠ 0 →
    ∃ t, exec (.pageProgram a p) s = .next t ∧ t.env.ref.flash = s.env.ref.flash)
end

