-- ==== Sys2Proof/Laws/Bytes.lean ====
section
/-! SUPPORT. Small lemmas about the byte orders, the codec and the ten slots. -/

namespace Sys2Proof.Machine

/-! ### Byte orders -/

@[simp] theorem le32_length (v : Word) : (le32 v).length = 4 := rfl

@[simp] theorem be24_length (a : Nat) : (be24 a).length = 3 := rfl

theorem fromLe32_bytes (b0 b1 b2 b3 : Byte) (t : List Byte) :
    fromLe32 (b0 :: b1 :: b2 :: b3 :: t) = b3 ++ b2 ++ b1 ++ b0 := rfl

@[simp] theorem fromLe32_le32_append (v : Word) (t : List Byte) : fromLe32 (le32 v ++ t) = v := by
  simp only [le32, List.cons_append, fromLe32_bytes]
  apply BitVec.eq_of_getLsbD_eq
  intro i hi
  simp only [BitVec.getLsbD_append, BitVec.getLsbD_extractLsb']
  split_ifs
  · simp [*]
  · rw [show 8 + (i - 8) = i by omega]; simp; omega
  · rw [show 16 + (i - 8 - 8) = i by omega]; simp; omega
  · rw [show 24 + (i - 8 - 8 - 8) = i by omega]; simp; omega

@[simp] theorem fromLe32_le32 (v : Word) : fromLe32 (le32 v) = v := by
  simpa using fromLe32_le32_append v []

theorem le32_fromLe32_bytes (b0 b1 b2 b3 : Byte) : le32 (b3 ++ b2 ++ b1 ++ b0) = [b0, b1, b2, b3] := by
  simp only [le32, List.cons.injEq, and_true]
  refine ⟨?_, ?_, ?_, ?_⟩ <;> apply BitVec.eq_of_getLsbD_eq <;> intro i hi <;>
    simp only [BitVec.getLsbD_append, BitVec.getLsbD_extractLsb', hi, decide_true, Bool.true_and]
  · rw [if_pos (by omega)]; congr 1; omega
  · rw [if_neg (by omega), if_pos (by omega)]; congr 1; omega
  · rw [if_neg (by omega), if_neg (by omega), if_pos (by omega)]; congr 1; omega
  · rw [if_neg (by omega), if_neg (by omega), if_neg (by omega)]; congr 1; omega

theorem fromBe24_be24_aux (a : Nat) (h : a < flashSize) :
    fromBe24 (BitVec.ofNat 8 (a / 65536)) (BitVec.ofNat 8 (a / 256)) (BitVec.ofNat 8 a) = a := by
  simp only [fromBe24, flashSize, BitVec.toNat_ofNat] at *
  omega

theorem be24_fromBe24 (b2 b1 b0 : Byte) : be24 (fromBe24 b2 b1 b0) = [b2, b1, b0] := by
  simp only [be24, fromBe24, List.cons.injEq, and_true]
  have h2 := b2.isLt
  have h1 := b1.isLt
  have h0 := b0.isLt
  refine ⟨?_, ?_, ?_⟩ <;> apply BitVec.eq_of_toNat_eq <;> simp <;> omega

/-! ### The codec -/

@[simp] theorem encodePacket_length (c : Word) (p : List Byte) : (encodePacket c p).length = 8 + p.length := by
  simp [encodePacket]; omega

/-- What `decodePacket` accepts: at least a header, declaring exactly the bytes that follow it. -/
theorem decodePacket_eq_ok {raw : List Byte} {c : Word} {p : List Byte} (h : decodePacket raw = .ok (c, p)) :
    hdrBytes ≤ raw.length ∧ raw.length - hdrBytes = (fromLe32 (slice raw 4 8)).toNat ∧
      c = fromLe32 (slice raw 0 4) ∧ p = raw.drop hdrBytes := by
  unfold decodePacket at h
  split at h
  · cases h
  · simp only at h
    split at h
    · cases h
    · cases h
      refine ⟨by omega, by simp_all, rfl, rfl⟩

/-! ### The ten slots -/

theorem slotGet_slotSet_same {α : Type} (t : Slots α) (i : Fin 10) (v : α) : slotGet (slotSet t i v) i = v := by
  fin_cases i <;> rfl

theorem slotGet_slotSet_ne {α : Type} (t : Slots α) (i j : Fin 10) (v : α) (h : i ≠ j) :
    slotGet (slotSet t i v) j = slotGet t j := by
  fin_cases i <;> fin_cases j <;> first | rfl | exact absurd rfl h

/-- The slot `regSlot` answers holds the name it was asked for. -/
theorem slotGet_regSlot {c : Config} {r : RegName} {i : Fin 10} (h : regSlot c r = some i) :
    slotGet c.slots i = r := by
  unfold regSlot at h
  repeat' split at h
  all_goals first | (cases h; assumption) | cases h

@[simp] theorem serialize_length (rb : RegBlock) : (serialize rb).length = 40 := by
  simp [serialize]

end Sys2Proof.Machine
end

