-- ==== Sys2Proof/Laws/Memory.lean ====
section
/-! SUPPORT. The reference flash's array: reads after writes, and the canonical form kept by every operation. -/

namespace Sys2Proof.Machine

/-! ### The canonical form, cell by cell -/

theorem cellsWf_cons {c : Nat} {v : Byte} {rest : List Host.Cell} :
    cellsWf ((c, v) :: rest) = true ↔
      c < flashSize ∧ v ≠ erasedByte ∧ (∀ d ∈ rest, c < d.1) ∧ cellsWf rest = true := by
  simp [cellsWf, and_assoc]

/-- An address below every listed one is erased. -/
theorem lookupCell_of_lt {cells : List Host.Cell} {a : Nat} (h : ∀ d ∈ cells, a < d.1) :
    lookupCell cells a = erasedByte := by
  induction cells with
  | nil => rfl
  | cons d rest ih =>
    obtain ⟨c, v⟩ := d
    have hc : a < c := h (c, v) (by simp)
    rw [lookupCell, if_neg (by omega)]
    exact ih fun d hd => h d (by simp [hd])

/-! ### Writing a byte -/

/-- The cells after a write are the old ones and the written one. -/
theorem mem_insertCell {a : Nat} {b : Byte} {cells : List Host.Cell} {d : Host.Cell}
    (h : d ∈ insertCell a b cells) : d ∈ cells ∨ d = (a, b) := by
  induction cells with
  | nil =>
    rw [insertCell] at h
    split at h <;> simp_all
  | cons c rest ih =>
    obtain ⟨c, v⟩ := c
    rw [insertCell] at h
    split_ifs at h <;> simp only [List.mem_cons] at h ⊢ <;> tauto

theorem insertCell_wf {a : Nat} {b : Byte} {cells : List Host.Cell} (ha : a < flashSize) (h : cellsWf cells = true) :
    cellsWf (insertCell a b cells) = true := by
  induction cells with
  | nil =>
    rw [insertCell]
    split
    · rfl
    · exact cellsWf_cons.2 ⟨ha, by assumption, by simp, rfl⟩
  | cons d rest ih =>
    obtain ⟨c, v⟩ := d
    obtain ⟨hc, hv, hlt, hrest⟩ := cellsWf_cons.1 h
    rw [insertCell]
    split_ifs with h1 hb h2 hb
    · exact h
    · refine cellsWf_cons.2 ⟨ha, hb, fun d hd => ?_, h⟩
      rcases List.mem_cons.1 hd with rfl | hd
      · exact h1
      · exact h1.trans (hlt d hd)
    · exact hrest
    · subst h2
      exact cellsWf_cons.2 ⟨ha, hb, hlt, hrest⟩
    · refine cellsWf_cons.2 ⟨hc, hv, fun d hd => ?_, ih hrest⟩
      rcases mem_insertCell hd with hd | rfl
      · exact hlt d hd
      · show c < a
        omega

/-- A read after a write: the written byte at its address, the old bytes elsewhere. -/
theorem lookupCell_insertCell {a x : Nat} {b : Byte} {cells : List Host.Cell} (h : cellsWf cells = true) :
    lookupCell (insertCell a b cells) x = if x = a then b else lookupCell cells x := by
  induction cells with
  | nil =>
    rw [insertCell]
    split_ifs with hb hx hx
    · exact hb.symm
    · rfl
    · show (if a = x then b else lookupCell [] x) = b
      rw [if_pos hx.symm]
    · show (if a = x then b else lookupCell [] x) = lookupCell [] x
      rw [if_neg (fun e => hx e.symm)]
  | cons d rest ih =>
    obtain ⟨c, v⟩ := d
    obtain ⟨_, _, hlt, hrest⟩ := cellsWf_cons.1 h
    rw [insertCell]
    split_ifs with h1 hb hx hx h2 hb hx hx hx
    · subst hx
      rw [hb, lookupCell, if_neg (by omega)]
      exact lookupCell_of_lt fun d hd => h1.trans (hlt d hd)
    · rfl
    · subst hx
      rw [lookupCell, if_pos rfl]
    · rw [lookupCell, if_neg (fun e => hx e.symm)]
    · subst h2 hx
      rw [hb]
      exact lookupCell_of_lt hlt
    · rw [lookupCell, if_neg (by omega)]
    · subst hx
      rw [lookupCell, if_pos rfl]
    · rw [lookupCell, lookupCell, if_neg (fun e => hx e.symm), if_neg (by omega)]
    · subst hx
      rw [lookupCell, if_neg (by omega), ih hrest, if_pos rfl]
    · rw [lookupCell, lookupCell, ih hrest, if_neg hx]

theorem memWrite_wf {m : Memory} (a : Nat) (b : Byte) (h : m.wf = true) : (memWrite m a b).wf = true :=
  insertCell_wf (Nat.mod_lt _ (by decide)) h

theorem memRead_memWrite {m : Memory} (a x : Nat) (b : Byte) (h : m.wf = true) :
    memRead (memWrite m a b) x = if x % flashSize = a % flashSize then b else memRead m x :=
  lookupCell_insertCell h

/-! ### Erasing and programming -/

theorem filter_wf {cells : List Host.Cell} (p : Host.Cell → Bool) (h : cellsWf cells = true) :
    cellsWf (cells.filter p) = true := by
  induction cells with
  | nil => rfl
  | cons d rest ih =>
    obtain ⟨c, v⟩ := d
    obtain ⟨hc, hv, hlt, hrest⟩ := cellsWf_cons.1 h
    rw [List.filter_cons]
    split
    · exact cellsWf_cons.2 ⟨hc, hv, fun d hd => hlt d (List.mem_filter.1 hd).1, ih hrest⟩
    · exact ih hrest

theorem memErase64k_wf {m : Memory} (a : Nat) (h : m.wf = true) : (memErase64k m a).wf = true :=
  filter_wf _ h

/-- A cell filter keeps the bytes it keeps and erases the others. -/
theorem lookupCell_filter {cells : List Host.Cell} {x : Nat} (q : Nat → Bool) :
    lookupCell (cells.filter fun c => q c.1) x = if q x then lookupCell cells x else erasedByte := by
  induction cells with
  | nil => simp [lookupCell]
  | cons d rest ih =>
    obtain ⟨c, v⟩ := d
    by_cases hc : c = x
    · subst hc
      cases hq : q c <;> simp [hq, lookupCell, ih]
    · cases hq : q c <;> simp [hq, lookupCell, ih, hc]

theorem memRead_memErase64k (m : Memory) (a x : Nat) :
    memRead (memErase64k m a) x =
      if eraseBase a ≤ x % flashSize ∧ x % flashSize < eraseBase a + 65536 then erasedByte else memRead m x := by
  have h := lookupCell_filter (cells := m.cells) (x := x % flashSize)
    (fun y => decide (y < eraseBase a) || decide (eraseBase a + 65536 ≤ y))
  unfold memRead memErase64k
  rw [h]
  by_cases h1 : x % flashSize < eraseBase a <;> by_cases h2 : eraseBase a + 65536 ≤ x % flashSize <;>
    simp [h1, h2]

theorem memProgram_wf (a : Nat) (bytes : List Byte) : ∀ (m : Memory) (j : Nat), m.wf = true →
    (memProgram m a j bytes).wf = true := by
  induction bytes with
  | nil => intro m j h; exact h
  | cons b rest ih => intro m j h; exact ih _ _ (memWrite_wf _ _ h)

/-! ### The flash and the bridge keep the form -/

theorem flashCommand_wf (op : Byte) (fr : List Byte) (r : Nat) (f : Flash) (h : f.mem.wf = true) :
    (flashCommand op fr r f).2.mem.wf = true := by
  unfold flashCommand
  simp only
  split_ifs <;> first | exact h | exact memErase64k_wf _ h | exact memProgram_wf _ _ _ _ h

theorem flashFrame_wf (fr : List Byte) (r : Nat) (f : Flash) (h : f.mem.wf = true) :
    (flashFrame fr r f).2.mem.wf = true := by
  unfold flashFrame
  split
  · exact h
  · split_ifs
    · exact h
    · exact h
    · exact flashCommand_wf _ _ _ _ h

theorem bridgeSet_wf (c : Config) (p : List Byte) (r : RefEnv) (h : r.flash.mem.wf = true) :
    (bridgeSet c p r).flash.mem.wf = true := by
  unfold bridgeSet
  simp only
  split_ifs
  · exact h
  · exact h
  · split
    · exact h
    · exact flashFrame_wf _ _ _ h

theorem refWrite_wf (c : Config) (raw : List Byte) (r : RefEnv) (h : r.flash.mem.wf = true) :
    (refWrite c raw r).flash.mem.wf = true := by
  unfold refWrite
  split
  · exact h
  · split_ifs
    · exact bridgeSet_wf _ _ _ h
    · exact h
    · exact h
    · exact h

theorem refRead_flash (c : Config) (m : Nat) (r : RefEnv) : (refRead c m r).2.flash = r.flash := by
  unfold refRead
  split <;> rfl

/-- The flash array the machine holds at reset has the form. -/
theorem reset_flash_wf : State.reset.env.ref.flash.mem.wf = true := rfl

end Sys2Proof.Machine
end

