-- ==== Sys2Proof/Laws/State.lean ====
section
/-! SUPPORT. One lemma per field for each named update of State, so that no later proof unfolds a record update. -/

namespace Sys2Proof.Machine

variable (s : State)


/-! ### dropTransients -/

@[simp] theorem dropTransients_cfg : (dropTransients s).cfg = s.cfg := rfl
@[simp] theorem dropTransients_seq : (dropTransients s).seq = s.seq := rfl
@[simp] theorem dropTransients_req : (dropTransients s).req = none := rfl
@[simp] theorem dropTransients_td : (dropTransients s).td = Descriptor.blank := rfl
@[simp] theorem dropTransients_rb : (dropTransients s).rb = zeroBlock := rfl
@[simp] theorem dropTransients_data : (dropTransients s).data = [] := rfl
@[simp] theorem dropTransients_acc : (dropTransients s).acc = [] := rfl
@[simp] theorem dropTransients_k : (dropTransients s).k = 0 := rfl
@[simp] theorem dropTransients_scope : (dropTransients s).scope = s.scope := rfl
@[simp] theorem dropTransients_pendingErr : (dropTransients s).pendingErr = s.pendingErr := rfl
@[simp] theorem dropTransients_pollByte : (dropTransients s).pollByte = s.pollByte := rfl
@[simp] theorem dropTransients_result : (dropTransients s).result = s.result := rfl
@[simp] theorem dropTransients_session : (dropTransients s).session = s.session := rfl
@[simp] theorem dropTransients_port : (dropTransients s).port = s.port := rfl
@[simp] theorem dropTransients_env : (dropTransients s).env = s.env := rfl
@[simp] theorem dropTransients_events : (dropTransients s).events = s.events := rfl

/-! ### emitStep -/

@[simp] theorem emitStep_cfg (r : Result) : (emitStep r s).cfg = s.cfg := rfl
@[simp] theorem emitStep_seq (r : Result) : (emitStep r s).seq = .idle := rfl
@[simp] theorem emitStep_req (r : Result) : (emitStep r s).req = none := rfl
@[simp] theorem emitStep_td (r : Result) : (emitStep r s).td = Descriptor.blank := rfl
@[simp] theorem emitStep_rb (r : Result) : (emitStep r s).rb = zeroBlock := rfl
@[simp] theorem emitStep_data (r : Result) : (emitStep r s).data = [] := rfl
@[simp] theorem emitStep_acc (r : Result) : (emitStep r s).acc = [] := rfl
@[simp] theorem emitStep_k (r : Result) : (emitStep r s).k = 0 := rfl
@[simp] theorem emitStep_scope (r : Result) : (emitStep r s).scope = s.scope := rfl
@[simp] theorem emitStep_pendingErr (r : Result) : (emitStep r s).pendingErr = s.pendingErr := rfl
@[simp] theorem emitStep_pollByte (r : Result) : (emitStep r s).pollByte = s.pollByte := rfl
@[simp] theorem emitStep_result (r : Result) : (emitStep r s).result = some r := rfl
@[simp] theorem emitStep_session (r : Result) : (emitStep r s).session = s.session := rfl
@[simp] theorem emitStep_port (r : Result) : (emitStep r s).port = s.port := rfl
@[simp] theorem emitStep_env (r : Result) : (emitStep r s).env = s.env := rfl
@[simp] theorem emitStep_events (r : Result) : (emitStep r s).events = s.events := rfl

/-! ### finishOp -/

@[simp] theorem finishOp_cfg (v : List Byte) : (finishOp v s).cfg = s.cfg := rfl
@[simp] theorem finishOp_seq (v : List Byte) : (finishOp v s).seq = .emit (.ok v) := rfl
@[simp] theorem finishOp_req (v : List Byte) : (finishOp v s).req = s.req := rfl
@[simp] theorem finishOp_td (v : List Byte) : (finishOp v s).td = s.td := rfl
@[simp] theorem finishOp_rb (v : List Byte) : (finishOp v s).rb = s.rb := rfl
@[simp] theorem finishOp_data (v : List Byte) : (finishOp v s).data = s.data := rfl
@[simp] theorem finishOp_acc (v : List Byte) : (finishOp v s).acc = s.acc := rfl
@[simp] theorem finishOp_k (v : List Byte) : (finishOp v s).k = s.k := rfl
@[simp] theorem finishOp_scope (v : List Byte) : (finishOp v s).scope = s.scope := rfl
@[simp] theorem finishOp_pendingErr (v : List Byte) : (finishOp v s).pendingErr = s.pendingErr := rfl
@[simp] theorem finishOp_pollByte (v : List Byte) : (finishOp v s).pollByte = s.pollByte := rfl
@[simp] theorem finishOp_result (v : List Byte) : (finishOp v s).result = s.result := rfl
@[simp] theorem finishOp_session (v : List Byte) : (finishOp v s).session = s.session := rfl
@[simp] theorem finishOp_port (v : List Byte) : (finishOp v s).port = s.port := rfl
@[simp] theorem finishOp_env (v : List Byte) : (finishOp v s).env = s.env := rfl
@[simp] theorem finishOp_events (v : List Byte) : (finishOp v s).events = s.events := rfl

/-! ### enterScope -/

@[simp] theorem enterScope_cfg : (enterScope s).cfg = s.cfg := rfl
@[simp] theorem enterScope_seq : (enterScope s).seq = .frame wrenFrame := rfl
@[simp] theorem enterScope_req : (enterScope s).req = s.req := rfl
@[simp] theorem enterScope_td : (enterScope s).td = s.td := rfl
@[simp] theorem enterScope_rb : (enterScope s).rb = s.rb := rfl
@[simp] theorem enterScope_data : (enterScope s).data = s.data := rfl
@[simp] theorem enterScope_acc : (enterScope s).acc = s.acc := rfl
@[simp] theorem enterScope_k : (enterScope s).k = s.k := rfl
@[simp] theorem enterScope_scope : (enterScope s).scope = s.scope := rfl
@[simp] theorem enterScope_pendingErr : (enterScope s).pendingErr = s.pendingErr := rfl
@[simp] theorem enterScope_pollByte : (enterScope s).pollByte = s.pollByte := rfl
@[simp] theorem enterScope_result : (enterScope s).result = s.result := rfl
@[simp] theorem enterScope_session : (enterScope s).session = s.session := rfl
@[simp] theorem enterScope_port : (enterScope s).port = s.port := rfl
@[simp] theorem enterScope_env : (enterScope s).env = s.env := rfl
@[simp] theorem enterScope_events : (enterScope s).events = s.events := rfl

/-! ### startPoll -/

@[simp] theorem startPoll_cfg : (startPoll s).cfg = s.cfg := rfl
@[simp] theorem startPoll_seq : (startPoll s).seq = .frame rdsrFrame := rfl
@[simp] theorem startPoll_req : (startPoll s).req = s.req := rfl
@[simp] theorem startPoll_td : (startPoll s).td = s.td := rfl
@[simp] theorem startPoll_rb : (startPoll s).rb = s.rb := rfl
@[simp] theorem startPoll_data : (startPoll s).data = s.data := rfl
@[simp] theorem startPoll_acc : (startPoll s).acc = s.acc := rfl
@[simp] theorem startPoll_k : (startPoll s).k = s.k := rfl
@[simp] theorem startPoll_scope : (startPoll s).scope = .polling := rfl
@[simp] theorem startPoll_pendingErr : (startPoll s).pendingErr = s.pendingErr := rfl
@[simp] theorem startPoll_pollByte : (startPoll s).pollByte = s.pollByte := rfl
@[simp] theorem startPoll_result : (startPoll s).result = s.result := rfl
@[simp] theorem startPoll_session : (startPoll s).session = s.session := rfl
@[simp] theorem startPoll_port : (startPoll s).port = s.port := rfl
@[simp] theorem startPoll_env : (startPoll s).env = s.env := rfl
@[simp] theorem startPoll_events : (startPoll s).events = s.events := rfl

/-! ### usbClose -/

@[simp] theorem usbClose_cfg : (usbClose s).cfg = s.cfg := rfl
@[simp] theorem usbClose_seq : (usbClose s).seq = s.seq := rfl
@[simp] theorem usbClose_req : (usbClose s).req = s.req := rfl
@[simp] theorem usbClose_td : (usbClose s).td = s.td := rfl
@[simp] theorem usbClose_rb : (usbClose s).rb = s.rb := rfl
@[simp] theorem usbClose_data : (usbClose s).data = s.data := rfl
@[simp] theorem usbClose_acc : (usbClose s).acc = s.acc := rfl
@[simp] theorem usbClose_k : (usbClose s).k = s.k := rfl
@[simp] theorem usbClose_scope : (usbClose s).scope = s.scope := rfl
@[simp] theorem usbClose_pendingErr : (usbClose s).pendingErr = s.pendingErr := rfl
@[simp] theorem usbClose_pollByte : (usbClose s).pollByte = s.pollByte := rfl
@[simp] theorem usbClose_result : (usbClose s).result = s.result := rfl
@[simp] theorem usbClose_session : (usbClose s).session = .closed := rfl
@[simp] theorem usbClose_port : (usbClose s).port = s.port := rfl
@[simp] theorem usbClose_env : (usbClose s).env = s.env := rfl
@[simp] theorem usbClose_events : (usbClose s).events = .closed :: s.events := rfl

/-! ### The state after a write -/

@[simp] theorem usbWrite_snd_cfg (raw : List Byte) : ((usbWrite raw s).2).cfg = s.cfg := rfl
@[simp] theorem usbWrite_snd_seq (raw : List Byte) : ((usbWrite raw s).2).seq = s.seq := rfl
@[simp] theorem usbWrite_snd_req (raw : List Byte) : ((usbWrite raw s).2).req = s.req := rfl
@[simp] theorem usbWrite_snd_td (raw : List Byte) : ((usbWrite raw s).2).td = s.td := rfl
@[simp] theorem usbWrite_snd_rb (raw : List Byte) : ((usbWrite raw s).2).rb = s.rb := rfl
@[simp] theorem usbWrite_snd_data (raw : List Byte) : ((usbWrite raw s).2).data = s.data := rfl
@[simp] theorem usbWrite_snd_acc (raw : List Byte) : ((usbWrite raw s).2).acc = s.acc := rfl
@[simp] theorem usbWrite_snd_k (raw : List Byte) : ((usbWrite raw s).2).k = s.k := rfl
@[simp] theorem usbWrite_snd_scope (raw : List Byte) : ((usbWrite raw s).2).scope = s.scope := rfl
@[simp] theorem usbWrite_snd_pendingErr (raw : List Byte) : ((usbWrite raw s).2).pendingErr = s.pendingErr := rfl
@[simp] theorem usbWrite_snd_pollByte (raw : List Byte) : ((usbWrite raw s).2).pollByte = s.pollByte := rfl
@[simp] theorem usbWrite_snd_result (raw : List Byte) : ((usbWrite raw s).2).result = s.result := rfl
@[simp] theorem usbWrite_snd_session (raw : List Byte) : ((usbWrite raw s).2).session = s.session := rfl
@[simp] theorem usbWrite_snd_port (raw : List Byte) : ((usbWrite raw s).2).port = s.port := rfl
@[simp] theorem usbWrite_snd_env (raw : List Byte) : ((usbWrite raw s).2).env = (answerWrite raw s).2 := rfl
@[simp] theorem usbWrite_snd_events (raw : List Byte) : ((usbWrite raw s).2).events = .wrote raw s.cfg.timeoutMs (answerWrite raw s).1 :: s.events := rfl

/-! ### The state after a read -/

@[simp] theorem usbRead_snd_cfg (m : Nat) : ((usbRead m s).2).cfg = s.cfg := rfl
@[simp] theorem usbRead_snd_seq (m : Nat) : ((usbRead m s).2).seq = s.seq := rfl
@[simp] theorem usbRead_snd_req (m : Nat) : ((usbRead m s).2).req = s.req := rfl
@[simp] theorem usbRead_snd_td (m : Nat) : ((usbRead m s).2).td = s.td := rfl
@[simp] theorem usbRead_snd_rb (m : Nat) : ((usbRead m s).2).rb = s.rb := rfl
@[simp] theorem usbRead_snd_data (m : Nat) : ((usbRead m s).2).data = s.data := rfl
@[simp] theorem usbRead_snd_acc (m : Nat) : ((usbRead m s).2).acc = s.acc := rfl
@[simp] theorem usbRead_snd_k (m : Nat) : ((usbRead m s).2).k = s.k := rfl
@[simp] theorem usbRead_snd_scope (m : Nat) : ((usbRead m s).2).scope = s.scope := rfl
@[simp] theorem usbRead_snd_pendingErr (m : Nat) : ((usbRead m s).2).pendingErr = s.pendingErr := rfl
@[simp] theorem usbRead_snd_pollByte (m : Nat) : ((usbRead m s).2).pollByte = s.pollByte := rfl
@[simp] theorem usbRead_snd_result (m : Nat) : ((usbRead m s).2).result = s.result := rfl
@[simp] theorem usbRead_snd_session (m : Nat) : ((usbRead m s).2).session = s.session := rfl
@[simp] theorem usbRead_snd_port (m : Nat) : ((usbRead m s).2).port = s.port := rfl
@[simp] theorem usbRead_snd_env (m : Nat) : ((usbRead m s).2).env = (answerRead m s).2 := rfl
@[simp] theorem usbRead_snd_events (m : Nat) : ((usbRead m s).2).events = .readUpTo m s.cfg.timeoutMs (answerRead m s).1 :: s.events := rfl

/-! ### The state after an open -/

@[simp] theorem usbOpen_snd_cfg : ((usbOpen s).2).cfg = s.cfg := rfl
@[simp] theorem usbOpen_snd_seq : ((usbOpen s).2).seq = s.seq := rfl
@[simp] theorem usbOpen_snd_req : ((usbOpen s).2).req = s.req := rfl
@[simp] theorem usbOpen_snd_td : ((usbOpen s).2).td = s.td := rfl
@[simp] theorem usbOpen_snd_rb : ((usbOpen s).2).rb = s.rb := rfl
@[simp] theorem usbOpen_snd_data : ((usbOpen s).2).data = s.data := rfl
@[simp] theorem usbOpen_snd_acc : ((usbOpen s).2).acc = s.acc := rfl
@[simp] theorem usbOpen_snd_k : ((usbOpen s).2).k = s.k := rfl
@[simp] theorem usbOpen_snd_scope : ((usbOpen s).2).scope = s.scope := rfl
@[simp] theorem usbOpen_snd_pendingErr : ((usbOpen s).2).pendingErr = s.pendingErr := rfl
@[simp] theorem usbOpen_snd_pollByte : ((usbOpen s).2).pollByte = s.pollByte := rfl
@[simp] theorem usbOpen_snd_result : ((usbOpen s).2).result = s.result := rfl
@[simp] theorem usbOpen_snd_session : ((usbOpen s).2).session = s.session := rfl
@[simp] theorem usbOpen_snd_port : ((usbOpen s).2).port = s.port := rfl
@[simp] theorem usbOpen_snd_env : ((usbOpen s).2).env = (answerOpen s).2 := rfl
@[simp] theorem usbOpen_snd_events : ((usbOpen s).2).events = .opened s.cfg.vendorId s.cfg.productId (answerOpen s).1 :: s.events := rfl

/-! ### The answers -/

@[simp] theorem usbWrite_fst (raw : List Byte) : (usbWrite raw s).1 = (answerWrite raw s).1 := rfl
@[simp] theorem usbRead_fst (m : Nat) : (usbRead m s).1 = (answerRead m s).1 := rfl
@[simp] theorem usbOpen_fst : (usbOpen s).1 = (answerOpen s).1 := rfl
/-! ### sendPacket -/

@[simp] theorem sendPacket_cfg (c : Word) (p : List Byte) (next : Line) : (sendPacket c p next s).cfg = s.cfg := rfl
@[simp] theorem sendPacket_seq (c : Word) (p : List Byte) (next : Line) : (sendPacket c p next s).seq = .wrote (encodePacket c p).length (answerWrite (encodePacket c p) s).1 next := rfl
@[simp] theorem sendPacket_req (c : Word) (p : List Byte) (next : Line) : (sendPacket c p next s).req = s.req := rfl
@[simp] theorem sendPacket_td (c : Word) (p : List Byte) (next : Line) : (sendPacket c p next s).td = s.td := rfl
@[simp] theorem sendPacket_rb (c : Word) (p : List Byte) (next : Line) : (sendPacket c p next s).rb = s.rb := rfl
@[simp] theorem sendPacket_data (c : Word) (p : List Byte) (next : Line) : (sendPacket c p next s).data = s.data := rfl
@[simp] theorem sendPacket_acc (c : Word) (p : List Byte) (next : Line) : (sendPacket c p next s).acc = s.acc := rfl
@[simp] theorem sendPacket_k (c : Word) (p : List Byte) (next : Line) : (sendPacket c p next s).k = s.k := rfl
@[simp] theorem sendPacket_scope (c : Word) (p : List Byte) (next : Line) : (sendPacket c p next s).scope = s.scope := rfl
@[simp] theorem sendPacket_pendingErr (c : Word) (p : List Byte) (next : Line) : (sendPacket c p next s).pendingErr = s.pendingErr := rfl
@[simp] theorem sendPacket_pollByte (c : Word) (p : List Byte) (next : Line) : (sendPacket c p next s).pollByte = s.pollByte := rfl
@[simp] theorem sendPacket_result (c : Word) (p : List Byte) (next : Line) : (sendPacket c p next s).result = s.result := rfl
@[simp] theorem sendPacket_session (c : Word) (p : List Byte) (next : Line) : (sendPacket c p next s).session = s.session := rfl
@[simp] theorem sendPacket_port (c : Word) (p : List Byte) (next : Line) : (sendPacket c p next s).port = s.port := rfl
@[simp] theorem sendPacket_env (c : Word) (p : List Byte) (next : Line) : (sendPacket c p next s).env = (answerWrite (encodePacket c p) s).2 := rfl
@[simp] theorem sendPacket_events (c : Word) (p : List Byte) (next : Line) : (sendPacket c p next s).events =
    .wrote (encodePacket c p) s.cfg.timeoutMs (answerWrite (encodePacket c p) s).1 :: s.events := rfl

/-! ### recvPacket -/

@[simp] theorem recvPacket_cfg (n : Nat) (behind : ReadAnswer → Seq) : (recvPacket n behind s).cfg = s.cfg := rfl
@[simp] theorem recvPacket_seq (n : Nat) (behind : ReadAnswer → Seq) : (recvPacket n behind s).seq = behind (answerRead (hdrBytes + n) s).1 := rfl
@[simp] theorem recvPacket_req (n : Nat) (behind : ReadAnswer → Seq) : (recvPacket n behind s).req = s.req := rfl
@[simp] theorem recvPacket_td (n : Nat) (behind : ReadAnswer → Seq) : (recvPacket n behind s).td = s.td := rfl
@[simp] theorem recvPacket_rb (n : Nat) (behind : ReadAnswer → Seq) : (recvPacket n behind s).rb = s.rb := rfl
@[simp] theorem recvPacket_data (n : Nat) (behind : ReadAnswer → Seq) : (recvPacket n behind s).data = s.data := rfl
@[simp] theorem recvPacket_acc (n : Nat) (behind : ReadAnswer → Seq) : (recvPacket n behind s).acc = s.acc := rfl
@[simp] theorem recvPacket_k (n : Nat) (behind : ReadAnswer → Seq) : (recvPacket n behind s).k = s.k := rfl
@[simp] theorem recvPacket_scope (n : Nat) (behind : ReadAnswer → Seq) : (recvPacket n behind s).scope = s.scope := rfl
@[simp] theorem recvPacket_pendingErr (n : Nat) (behind : ReadAnswer → Seq) : (recvPacket n behind s).pendingErr = s.pendingErr := rfl
@[simp] theorem recvPacket_pollByte (n : Nat) (behind : ReadAnswer → Seq) : (recvPacket n behind s).pollByte = s.pollByte := rfl
@[simp] theorem recvPacket_result (n : Nat) (behind : ReadAnswer → Seq) : (recvPacket n behind s).result = s.result := rfl
@[simp] theorem recvPacket_session (n : Nat) (behind : ReadAnswer → Seq) : (recvPacket n behind s).session = s.session := rfl
@[simp] theorem recvPacket_port (n : Nat) (behind : ReadAnswer → Seq) : (recvPacket n behind s).port = s.port := rfl
@[simp] theorem recvPacket_env (n : Nat) (behind : ReadAnswer → Seq) : (recvPacket n behind s).env = (answerRead (hdrBytes + n) s).2 := rfl
@[simp] theorem recvPacket_events (n : Nat) (behind : ReadAnswer → Seq) : (recvPacket n behind s).events =
    .readUpTo (hdrBytes + n) s.cfg.timeoutMs (answerRead (hdrBytes + n) s).1 :: s.events := rfl

/-! ### goLine: every field but SEQ and `data` stays -/

@[simp] theorem goLine_cfg (next : Line) : (goLine next s).cfg = s.cfg := by cases next <;> rfl
@[simp] theorem goLine_req (next : Line) : (goLine next s).req = s.req := by cases next <;> rfl
@[simp] theorem goLine_td (next : Line) : (goLine next s).td = s.td := by cases next <;> rfl
@[simp] theorem goLine_rb (next : Line) : (goLine next s).rb = s.rb := by cases next <;> rfl
@[simp] theorem goLine_acc (next : Line) : (goLine next s).acc = s.acc := by cases next <;> rfl
@[simp] theorem goLine_k (next : Line) : (goLine next s).k = s.k := by cases next <;> rfl
@[simp] theorem goLine_scope (next : Line) : (goLine next s).scope = s.scope := by cases next <;> rfl
@[simp] theorem goLine_pendingErr (next : Line) : (goLine next s).pendingErr = s.pendingErr := by cases next <;> rfl
@[simp] theorem goLine_pollByte (next : Line) : (goLine next s).pollByte = s.pollByte := by cases next <;> rfl
@[simp] theorem goLine_result (next : Line) : (goLine next s).result = s.result := by cases next <;> rfl
@[simp] theorem goLine_session (next : Line) : (goLine next s).session = s.session := by cases next <;> rfl
@[simp] theorem goLine_port (next : Line) : (goLine next s).port = s.port := by cases next <;> rfl
@[simp] theorem goLine_env (next : Line) : (goLine next s).env = s.env := by cases next <;> rfl
@[simp] theorem goLine_events (next : Line) : (goLine next s).events = s.events := by cases next <;> rfl

/-! ### raiseErr: every field but SEQ, SCOPE and PENDING_ERR stays -/

variable (e : Err)

@[simp] theorem raiseErr_cfg : (raiseErr e s).cfg = s.cfg := by unfold raiseErr; split <;> rfl
@[simp] theorem raiseErr_req : (raiseErr e s).req = s.req := by unfold raiseErr; split <;> rfl
@[simp] theorem raiseErr_td : (raiseErr e s).td = s.td := by unfold raiseErr; split <;> rfl
@[simp] theorem raiseErr_rb : (raiseErr e s).rb = s.rb := by unfold raiseErr; split <;> rfl
@[simp] theorem raiseErr_data : (raiseErr e s).data = s.data := by unfold raiseErr; split <;> rfl
@[simp] theorem raiseErr_acc : (raiseErr e s).acc = s.acc := by unfold raiseErr; split <;> rfl
@[simp] theorem raiseErr_k : (raiseErr e s).k = s.k := by unfold raiseErr; split <;> rfl
@[simp] theorem raiseErr_pollByte : (raiseErr e s).pollByte = s.pollByte := by unfold raiseErr; split <;> rfl
@[simp] theorem raiseErr_result : (raiseErr e s).result = s.result := by unfold raiseErr; split <;> rfl
@[simp] theorem raiseErr_session : (raiseErr e s).session = s.session := by unfold raiseErr; split <;> rfl
@[simp] theorem raiseErr_port : (raiseErr e s).port = s.port := by unfold raiseErr; split <;> rfl
@[simp] theorem raiseErr_env : (raiseErr e s).env = s.env := by unfold raiseErr; split <;> rfl
@[simp] theorem raiseErr_events : (raiseErr e s).events = s.events := by unfold raiseErr; split <;> rfl

end Sys2Proof.Machine
end

