-- ==== Sys2Proof/Laws/Ops.lean ====
section
/-! SUPPORT. For each shared operation, once, everything it can do; the lemmas later proofs cite instead of unfolding it. -/

namespace Sys2Proof.Machine

open Sys2Proof.Safety

variable (s : State)

/-! ### The transport port -/

theorem answerWrite_closed {raw : List Byte} (h : s.session = .closed) :
    answerWrite raw s = (.failed .io, s.env) := by
  unfold answerWrite; rw [if_pos h]

theorem answerRead_closed {m : Nat} (h : s.session = .closed) : answerRead m s = (.failed .io, s.env) := by
  unfold answerRead; rw [if_pos h]

/-- Everything a write can meet: no session, a packet beyond the limit, the oracle, the reference environment. -/
theorem answerWrite_cases (raw : List Byte) :
    (s.session = .closed ∧ answerWrite raw s = (.failed .io, s.env)) ∨
    (s.session ≠ .closed ∧ beyondMaxPacket s.cfg raw.length = true ∧
      answerWrite raw s = (.failed (Config.oversizeFailure raw.length), s.env)) ∨
    (s.session ≠ .closed ∧ beyondMaxPacket s.cfg raw.length = false ∧ s.env.kind = .oracle ∧
      answerWrite raw s = ((oracleWrite s.env.oracle).1, { s.env with oracle := (oracleWrite s.env.oracle).2 })) ∨
    (s.session ≠ .closed ∧ beyondMaxPacket s.cfg raw.length = false ∧ s.env.kind = .reference ∧
      answerWrite raw s = (.count raw.length, { s.env with ref := refWrite s.cfg raw s.env.ref })) := by
  unfold answerWrite
  by_cases h : s.session = .closed
  · simp [h]
  · cases hb : beyondMaxPacket s.cfg raw.length <;> cases hk : s.env.kind <;> simp [h, hk]

/-- Everything a read can meet. -/
theorem answerRead_cases (m : Nat) :
    (s.session = .closed ∧ answerRead m s = (.failed .io, s.env)) ∨
    (s.session ≠ .closed ∧ s.env.kind = .oracle ∧
      answerRead m s = ((oracleRead s.env.oracle).1, { s.env with oracle := (oracleRead s.env.oracle).2 })) ∨
    (s.session ≠ .closed ∧ s.env.kind = .reference ∧
      answerRead m s = (.bytes (refRead s.cfg m s.env.ref).1,
        { s.env with ref := (refRead s.cfg m s.env.ref).2 })) := by
  unfold answerRead
  by_cases h : s.session = .closed
  · simp [h]
  · cases hk : s.env.kind <;> simp [h]

/-- A write raises nothing exactly when the whole packet was taken. -/
theorem checkWrite_eq_none {len : Nat} {a : WriteAnswer} : checkWrite len a = none ↔ a = .count len := by
  cases a with
  | failed k => simp [checkWrite]
  | count n => by_cases h : n = len <;> simp [checkWrite, h]

@[simp] theorem checkWrite_count (len : Nat) : checkWrite len (.count len) = none := by simp [checkWrite]

@[simp] theorem checkWrite_failed (len : Nat) (k : FailKind) :
    checkWrite len (.failed k) = some (.transportError k) := rfl

/-! ### Error entry -/

theorem raiseErr_outside {e : Err} (h : s.scope = .closed) :
    raiseErr e s = { s with seq := .emit (.err e) } := by
  unfold raiseErr; rw [h]

theorem raiseErr_body {e : Err} (h : s.scope = .body) :
    raiseErr e s = { s with scope := .polling, pendingErr := some e, seq := .frame rdsrFrame } := by
  unfold raiseErr; rw [h]

theorem raiseErr_exit {e : Err} (h : s.scope = .polling ∨ s.scope = .closing) :
    raiseErr e s =
      { s with scope := .closed, pendingErr := none, seq := .emit (.err (s.pendingErr.getD e)) } := by
  unfold raiseErr; rcases h with h | h <;> rw [h]

/-- Where error entry leads: to the emission outside any scope, or to the scope's first poll. -/
theorem raiseErr_cases (e : Err) :
    (∃ e', (raiseErr e s).seq = .emit (.err e') ∧ (raiseErr e s).scope = .closed) ∨
    (s.scope = .body ∧ (raiseErr e s).seq = .frame rdsrFrame ∧ (raiseErr e s).scope = .polling) := by
  unfold raiseErr
  cases h : s.scope <;> simp

/-! ### The lines between transactions -/

/-- A transaction line is reached, or its length check raises. -/
theorem issueFrame_cases (f : Frame) :
    (frameTooLong f = false ∧ issueFrame f s = { s with seq := .frame f }) ∨
    (frameTooLong f = true ∧ issueFrame f s = raiseErr (.invalidArgument (.wbytes f.wbytes)) s) := by
  unfold issueFrame
  cases h : frameTooLong f <;> simp

/-- READ_DATA's loop: a chunk, the final check, or the result. -/
theorem readLoop_cases (a n : Nat) :
    (s.acc.length < n ∧
      readLoop a n s = { s with seq := .frame (fastReadFrame (a + s.acc.length) (min maxXfer (n - s.acc.length))) }) ∨
    (n < s.acc.length ∧ readLoop a n s = raiseErr (.lengthAccounting n s.acc.length) s) ∨
    (s.acc.length = n ∧ readLoop a n s = finishOp s.acc s) := by
  unfold readLoop
  split_ifs with h1 h2
  · exact .inl ⟨h1, rfl⟩
  · exact .inr (.inl ⟨by omega, rfl⟩)
  · exact .inr (.inr ⟨by omega, rfl⟩)

/-- A PROGRAM_PAGE starts its scope, or its address check raises. -/
theorem beginPage_cases (a : Nat) :
    (a < flashSize ∧ beginPage a s = enterScope s) ∨
    (flashSize ≤ a ∧ beginPage a s = raiseErr (.invalidArgument (.addr a)) s) := by
  unfold beginPage addrBad
  by_cases h : flashSize ≤ a
  · exact .inr ⟨h, by simp [h]⟩
  · exact .inl ⟨by omega, by simp [h]⟩

/-- PROGRAM's loop: the next chunk that is not blank, or the end of the payload. -/
theorem programLoop_cases (a : Nat) (p : List Byte) (n k : Nat) :
    (skipBlank p n p.length k * n < p.length ∧
      programLoop a p n k s = beginPage (a + skipBlank p n p.length k * n) { s with k := skipBlank p n p.length k }) ∨
    (p.length ≤ skipBlank p n p.length k * n ∧
      programLoop a p n k s = finishOp [] { s with k := skipBlank p n p.length k }) := by
  unfold programLoop
  simp only
  split_ifs with h
  · exact .inl ⟨h, rfl⟩
  · exact .inr ⟨by omega, rfl⟩

/-- A poll's byte: WIP clear leads to WRDI, else to the next poll; no byte, to the next poll. -/
theorem pollAnswer_cases (r : List Byte) :
    (r = [] ∧ pollAnswer r s = { s with seq := .frame rdsrFrame }) ∨
    (∃ b t, r = b :: t ∧ wipClear b = true ∧
      pollAnswer r s = { s with pollByte := b, scope := .closing, seq := .frame wrdiFrame }) ∨
    (∃ b t, r = b :: t ∧ wipClear b = false ∧
      pollAnswer r s = { s with pollByte := b, seq := .frame rdsrFrame }) := by
  cases r with
  | nil => exact .inl ⟨rfl, rfl⟩
  | cons b t =>
    cases h : wipClear b
    · exact .inr (.inr ⟨b, t, rfl, h, by simp [pollAnswer, h]⟩)
    · exact .inr (.inl ⟨b, t, rfl, h, by simp [pollAnswer, h]⟩)

/-! ### The lines between transactions change no field but SEQ, ACC, K and the scope's -/

@[simp] theorem issueFrame_cfg (f : Frame) : (issueFrame f s).cfg = s.cfg := by
  rcases issueFrame_cases s f with ⟨_, e⟩ | ⟨_, e⟩ <;> simp [e]
@[simp] theorem issueFrame_req (f : Frame) : (issueFrame f s).req = s.req := by
  rcases issueFrame_cases s f with ⟨_, e⟩ | ⟨_, e⟩ <;> simp [e]
@[simp] theorem issueFrame_td (f : Frame) : (issueFrame f s).td = s.td := by
  rcases issueFrame_cases s f with ⟨_, e⟩ | ⟨_, e⟩ <;> simp [e]
@[simp] theorem issueFrame_rb (f : Frame) : (issueFrame f s).rb = s.rb := by
  rcases issueFrame_cases s f with ⟨_, e⟩ | ⟨_, e⟩ <;> simp [e]
@[simp] theorem issueFrame_data (f : Frame) : (issueFrame f s).data = s.data := by
  rcases issueFrame_cases s f with ⟨_, e⟩ | ⟨_, e⟩ <;> simp [e]
@[simp] theorem issueFrame_result (f : Frame) : (issueFrame f s).result = s.result := by
  rcases issueFrame_cases s f with ⟨_, e⟩ | ⟨_, e⟩ <;> simp [e]
@[simp] theorem issueFrame_session (f : Frame) : (issueFrame f s).session = s.session := by
  rcases issueFrame_cases s f with ⟨_, e⟩ | ⟨_, e⟩ <;> simp [e]
@[simp] theorem issueFrame_port (f : Frame) : (issueFrame f s).port = s.port := by
  rcases issueFrame_cases s f with ⟨_, e⟩ | ⟨_, e⟩ <;> simp [e]
@[simp] theorem issueFrame_env (f : Frame) : (issueFrame f s).env = s.env := by
  rcases issueFrame_cases s f with ⟨_, e⟩ | ⟨_, e⟩ <;> simp [e]
@[simp] theorem issueFrame_events (f : Frame) : (issueFrame f s).events = s.events := by
  rcases issueFrame_cases s f with ⟨_, e⟩ | ⟨_, e⟩ <;> simp [e]

@[simp] theorem readLoop_cfg (a n : Nat) : (readLoop a n s).cfg = s.cfg := by
  rcases readLoop_cases s a n with ⟨_, e⟩ | ⟨_, e⟩ | ⟨_, e⟩ <;> simp [e, finishOp]
@[simp] theorem readLoop_req (a n : Nat) : (readLoop a n s).req = s.req := by
  rcases readLoop_cases s a n with ⟨_, e⟩ | ⟨_, e⟩ | ⟨_, e⟩ <;> simp [e, finishOp]
@[simp] theorem readLoop_td (a n : Nat) : (readLoop a n s).td = s.td := by
  rcases readLoop_cases s a n with ⟨_, e⟩ | ⟨_, e⟩ | ⟨_, e⟩ <;> simp [e, finishOp]
@[simp] theorem readLoop_rb (a n : Nat) : (readLoop a n s).rb = s.rb := by
  rcases readLoop_cases s a n with ⟨_, e⟩ | ⟨_, e⟩ | ⟨_, e⟩ <;> simp [e, finishOp]
@[simp] theorem readLoop_data (a n : Nat) : (readLoop a n s).data = s.data := by
  rcases readLoop_cases s a n with ⟨_, e⟩ | ⟨_, e⟩ | ⟨_, e⟩ <;> simp [e, finishOp]
@[simp] theorem readLoop_result (a n : Nat) : (readLoop a n s).result = s.result := by
  rcases readLoop_cases s a n with ⟨_, e⟩ | ⟨_, e⟩ | ⟨_, e⟩ <;> simp [e, finishOp]
@[simp] theorem readLoop_session (a n : Nat) : (readLoop a n s).session = s.session := by
  rcases readLoop_cases s a n with ⟨_, e⟩ | ⟨_, e⟩ | ⟨_, e⟩ <;> simp [e, finishOp]
@[simp] theorem readLoop_port (a n : Nat) : (readLoop a n s).port = s.port := by
  rcases readLoop_cases s a n with ⟨_, e⟩ | ⟨_, e⟩ | ⟨_, e⟩ <;> simp [e, finishOp]
@[simp] theorem readLoop_env (a n : Nat) : (readLoop a n s).env = s.env := by
  rcases readLoop_cases s a n with ⟨_, e⟩ | ⟨_, e⟩ | ⟨_, e⟩ <;> simp [e, finishOp]
@[simp] theorem readLoop_events (a n : Nat) : (readLoop a n s).events = s.events := by
  rcases readLoop_cases s a n with ⟨_, e⟩ | ⟨_, e⟩ | ⟨_, e⟩ <;> simp [e, finishOp]

@[simp] theorem beginPage_cfg (a : Nat) : (beginPage a s).cfg = s.cfg := by
  rcases beginPage_cases s a with ⟨_, e⟩ | ⟨_, e⟩ <;> simp [e, enterScope]
@[simp] theorem beginPage_req (a : Nat) : (beginPage a s).req = s.req := by
  rcases beginPage_cases s a with ⟨_, e⟩ | ⟨_, e⟩ <;> simp [e, enterScope]
@[simp] theorem beginPage_td (a : Nat) : (beginPage a s).td = s.td := by
  rcases beginPage_cases s a with ⟨_, e⟩ | ⟨_, e⟩ <;> simp [e, enterScope]
@[simp] theorem beginPage_rb (a : Nat) : (beginPage a s).rb = s.rb := by
  rcases beginPage_cases s a with ⟨_, e⟩ | ⟨_, e⟩ <;> simp [e, enterScope]
@[simp] theorem beginPage_data (a : Nat) : (beginPage a s).data = s.data := by
  rcases beginPage_cases s a with ⟨_, e⟩ | ⟨_, e⟩ <;> simp [e, enterScope]
@[simp] theorem beginPage_result (a : Nat) : (beginPage a s).result = s.result := by
  rcases beginPage_cases s a with ⟨_, e⟩ | ⟨_, e⟩ <;> simp [e, enterScope]
@[simp] theorem beginPage_session (a : Nat) : (beginPage a s).session = s.session := by
  rcases beginPage_cases s a with ⟨_, e⟩ | ⟨_, e⟩ <;> simp [e, enterScope]
@[simp] theorem beginPage_port (a : Nat) : (beginPage a s).port = s.port := by
  rcases beginPage_cases s a with ⟨_, e⟩ | ⟨_, e⟩ <;> simp [e, enterScope]
@[simp] theorem beginPage_env (a : Nat) : (beginPage a s).env = s.env := by
  rcases beginPage_cases s a with ⟨_, e⟩ | ⟨_, e⟩ <;> simp [e, enterScope]
@[simp] theorem beginPage_events (a : Nat) : (beginPage a s).events = s.events := by
  rcases beginPage_cases s a with ⟨_, e⟩ | ⟨_, e⟩ <;> simp [e, enterScope]

@[simp] theorem programLoop_cfg (a : Nat) (p : List Byte) (n k : Nat) : (programLoop a p n k s).cfg = s.cfg := by
  rcases programLoop_cases s a p n k with ⟨_, e⟩ | ⟨_, e⟩ <;> simp [e, finishOp]
@[simp] theorem programLoop_req (a : Nat) (p : List Byte) (n k : Nat) : (programLoop a p n k s).req = s.req := by
  rcases programLoop_cases s a p n k with ⟨_, e⟩ | ⟨_, e⟩ <;> simp [e, finishOp]
@[simp] theorem programLoop_td (a : Nat) (p : List Byte) (n k : Nat) : (programLoop a p n k s).td = s.td := by
  rcases programLoop_cases s a p n k with ⟨_, e⟩ | ⟨_, e⟩ <;> simp [e, finishOp]
@[simp] theorem programLoop_rb (a : Nat) (p : List Byte) (n k : Nat) : (programLoop a p n k s).rb = s.rb := by
  rcases programLoop_cases s a p n k with ⟨_, e⟩ | ⟨_, e⟩ <;> simp [e, finishOp]
@[simp] theorem programLoop_data (a : Nat) (p : List Byte) (n k : Nat) : (programLoop a p n k s).data = s.data := by
  rcases programLoop_cases s a p n k with ⟨_, e⟩ | ⟨_, e⟩ <;> simp [e, finishOp]
@[simp] theorem programLoop_result (a : Nat) (p : List Byte) (n k : Nat) : (programLoop a p n k s).result = s.result := by
  rcases programLoop_cases s a p n k with ⟨_, e⟩ | ⟨_, e⟩ <;> simp [e, finishOp]
@[simp] theorem programLoop_session (a : Nat) (p : List Byte) (n k : Nat) : (programLoop a p n k s).session = s.session := by
  rcases programLoop_cases s a p n k with ⟨_, e⟩ | ⟨_, e⟩ <;> simp [e, finishOp]
@[simp] theorem programLoop_port (a : Nat) (p : List Byte) (n k : Nat) : (programLoop a p n k s).port = s.port := by
  rcases programLoop_cases s a p n k with ⟨_, e⟩ | ⟨_, e⟩ <;> simp [e, finishOp]
@[simp] theorem programLoop_env (a : Nat) (p : List Byte) (n k : Nat) : (programLoop a p n k s).env = s.env := by
  rcases programLoop_cases s a p n k with ⟨_, e⟩ | ⟨_, e⟩ <;> simp [e, finishOp]
@[simp] theorem programLoop_events (a : Nat) (p : List Byte) (n k : Nat) : (programLoop a p n k s).events = s.events := by
  rcases programLoop_cases s a p n k with ⟨_, e⟩ | ⟨_, e⟩ <;> simp [e, finishOp]

@[simp] theorem pollAnswer_cfg (r : List Byte) : (pollAnswer r s).cfg = s.cfg := by
  rcases pollAnswer_cases s r with ⟨_, e⟩ | ⟨_, _, _, _, e⟩ | ⟨_, _, _, _, e⟩ <;> rw [e]
@[simp] theorem pollAnswer_req (r : List Byte) : (pollAnswer r s).req = s.req := by
  rcases pollAnswer_cases s r with ⟨_, e⟩ | ⟨_, _, _, _, e⟩ | ⟨_, _, _, _, e⟩ <;> rw [e]
@[simp] theorem pollAnswer_td (r : List Byte) : (pollAnswer r s).td = s.td := by
  rcases pollAnswer_cases s r with ⟨_, e⟩ | ⟨_, _, _, _, e⟩ | ⟨_, _, _, _, e⟩ <;> rw [e]
@[simp] theorem pollAnswer_rb (r : List Byte) : (pollAnswer r s).rb = s.rb := by
  rcases pollAnswer_cases s r with ⟨_, e⟩ | ⟨_, _, _, _, e⟩ | ⟨_, _, _, _, e⟩ <;> rw [e]
@[simp] theorem pollAnswer_data (r : List Byte) : (pollAnswer r s).data = s.data := by
  rcases pollAnswer_cases s r with ⟨_, e⟩ | ⟨_, _, _, _, e⟩ | ⟨_, _, _, _, e⟩ <;> rw [e]
@[simp] theorem pollAnswer_result (r : List Byte) : (pollAnswer r s).result = s.result := by
  rcases pollAnswer_cases s r with ⟨_, e⟩ | ⟨_, _, _, _, e⟩ | ⟨_, _, _, _, e⟩ <;> rw [e]
@[simp] theorem pollAnswer_session (r : List Byte) : (pollAnswer r s).session = s.session := by
  rcases pollAnswer_cases s r with ⟨_, e⟩ | ⟨_, _, _, _, e⟩ | ⟨_, _, _, _, e⟩ <;> rw [e]
@[simp] theorem pollAnswer_port (r : List Byte) : (pollAnswer r s).port = s.port := by
  rcases pollAnswer_cases s r with ⟨_, e⟩ | ⟨_, _, _, _, e⟩ | ⟨_, _, _, _, e⟩ <;> rw [e]
@[simp] theorem pollAnswer_env (r : List Byte) : (pollAnswer r s).env = s.env := by
  rcases pollAnswer_cases s r with ⟨_, e⟩ | ⟨_, _, _, _, e⟩ | ⟨_, _, _, _, e⟩ <;> rw [e]
@[simp] theorem pollAnswer_events (r : List Byte) : (pollAnswer r s).events = s.events := by
  rcases pollAnswer_cases s r with ⟨_, e⟩ | ⟨_, _, _, _, e⟩ | ⟨_, _, _, _, e⟩ <;> rw [e]

/-- Everything the return of a transaction can do, by SCOPE and the running operation. -/
theorem returnTransact_cases (v : List Byte) :
    (∃ a n, s.scope = .closed ∧ currentOp s = some (.readData a n) ∧
      returnTransact v s = readLoop a n { s with acc := s.acc ++ v }) ∨
    (s.scope = .closed ∧ mutating (currentOp s) = true ∧ returnTransact v s = enterBody s) ∨
    (s.scope = .closed ∧ returnTransact v s = finishOp v s) ∨
    (s.scope = .body ∧ returnTransact v s = startPoll s) ∨
    (s.scope = .polling ∧ returnTransact v s = pollAnswer v s) ∨
    (∃ e, s.scope = .closing ∧ s.pendingErr = some e ∧
      returnTransact v s = raiseErr e { s with scope := .closed, pendingErr := none }) ∨
    (∃ a p n, s.scope = .closing ∧ s.pendingErr = none ∧ currentOp s = some (.program a p n) ∧
      returnTransact v s = programLoop a p n (s.k + 1) { s with scope := .closed }) ∨
    (s.scope = .closing ∧ s.pendingErr = none ∧ (∀ a p n, currentOp s ≠ some (.program a p n)) ∧
      returnTransact v s = finishOp [] { s with scope := .closed }) := by
  unfold returnTransact returnOutside closeScope
  cases hs : s.scope with
  | closed =>
    simp only
    cases hop : currentOp s with
    | none => simp
    | some i => cases i <;> simp [mutating]
  | body => simp
  | polling => simp
  | closing =>
    simp only
    cases hp : s.pendingErr with
    | some e => simp
    | none =>
      cases hop : currentOp s with
      | none => simp
      | some i => cases i <;> simp

@[simp] theorem returnTransact_cfg (v : List Byte) : (returnTransact v s).cfg = s.cfg := by
  rcases returnTransact_cases s v with ⟨_, _, _, _, e⟩ | ⟨_, _, e⟩ | ⟨_, e⟩ | ⟨_, e⟩ | ⟨_, e⟩ | ⟨_, _, _, e⟩ | ⟨_, _, _, _, _, _, e⟩ | ⟨_, _, _, e⟩ <;>
    simp [e, finishOp, startPoll, enterBody, pollAnswer_cfg]
@[simp] theorem returnTransact_req (v : List Byte) : (returnTransact v s).req = s.req := by
  rcases returnTransact_cases s v with ⟨_, _, _, _, e⟩ | ⟨_, _, e⟩ | ⟨_, e⟩ | ⟨_, e⟩ | ⟨_, e⟩ | ⟨_, _, _, e⟩ | ⟨_, _, _, _, _, _, e⟩ | ⟨_, _, _, e⟩ <;>
    simp [e, finishOp, startPoll, enterBody, pollAnswer_req]
@[simp] theorem returnTransact_td (v : List Byte) : (returnTransact v s).td = s.td := by
  rcases returnTransact_cases s v with ⟨_, _, _, _, e⟩ | ⟨_, _, e⟩ | ⟨_, e⟩ | ⟨_, e⟩ | ⟨_, e⟩ | ⟨_, _, _, e⟩ | ⟨_, _, _, _, _, _, e⟩ | ⟨_, _, _, e⟩ <;>
    simp [e, finishOp, startPoll, enterBody, pollAnswer_td]
@[simp] theorem returnTransact_rb (v : List Byte) : (returnTransact v s).rb = s.rb := by
  rcases returnTransact_cases s v with ⟨_, _, _, _, e⟩ | ⟨_, _, e⟩ | ⟨_, e⟩ | ⟨_, e⟩ | ⟨_, e⟩ | ⟨_, _, _, e⟩ | ⟨_, _, _, _, _, _, e⟩ | ⟨_, _, _, e⟩ <;>
    simp [e, finishOp, startPoll, enterBody, pollAnswer_rb]
@[simp] theorem returnTransact_data (v : List Byte) : (returnTransact v s).data = s.data := by
  rcases returnTransact_cases s v with ⟨_, _, _, _, e⟩ | ⟨_, _, e⟩ | ⟨_, e⟩ | ⟨_, e⟩ | ⟨_, e⟩ | ⟨_, _, _, e⟩ | ⟨_, _, _, _, _, _, e⟩ | ⟨_, _, _, e⟩ <;>
    simp [e, finishOp, startPoll, enterBody, pollAnswer_data]
@[simp] theorem returnTransact_result (v : List Byte) : (returnTransact v s).result = s.result := by
  rcases returnTransact_cases s v with ⟨_, _, _, _, e⟩ | ⟨_, _, e⟩ | ⟨_, e⟩ | ⟨_, e⟩ | ⟨_, e⟩ | ⟨_, _, _, e⟩ | ⟨_, _, _, _, _, _, e⟩ | ⟨_, _, _, e⟩ <;>
    simp [e, finishOp, startPoll, enterBody, pollAnswer_result]
@[simp] theorem returnTransact_session (v : List Byte) : (returnTransact v s).session = s.session := by
  rcases returnTransact_cases s v with ⟨_, _, _, _, e⟩ | ⟨_, _, e⟩ | ⟨_, e⟩ | ⟨_, e⟩ | ⟨_, e⟩ | ⟨_, _, _, e⟩ | ⟨_, _, _, _, _, _, e⟩ | ⟨_, _, _, e⟩ <;>
    simp [e, finishOp, startPoll, enterBody, pollAnswer_session]
@[simp] theorem returnTransact_port (v : List Byte) : (returnTransact v s).port = s.port := by
  rcases returnTransact_cases s v with ⟨_, _, _, _, e⟩ | ⟨_, _, e⟩ | ⟨_, e⟩ | ⟨_, e⟩ | ⟨_, e⟩ | ⟨_, _, _, e⟩ | ⟨_, _, _, _, _, _, e⟩ | ⟨_, _, _, e⟩ <;>
    simp [e, finishOp, startPoll, enterBody, pollAnswer_port]
@[simp] theorem returnTransact_env (v : List Byte) : (returnTransact v s).env = s.env := by
  rcases returnTransact_cases s v with ⟨_, _, _, _, e⟩ | ⟨_, _, e⟩ | ⟨_, e⟩ | ⟨_, e⟩ | ⟨_, e⟩ | ⟨_, _, _, e⟩ | ⟨_, _, _, _, _, _, e⟩ | ⟨_, _, _, e⟩ <;>
    simp [e, finishOp, startPoll, enterBody, pollAnswer_env]
@[simp] theorem returnTransact_events (v : List Byte) : (returnTransact v s).events = s.events := by
  rcases returnTransact_cases s v with ⟨_, _, _, _, e⟩ | ⟨_, _, e⟩ | ⟨_, e⟩ | ⟨_, e⟩ | ⟨_, e⟩ | ⟨_, _, _, e⟩ | ⟨_, _, _, _, _, _, e⟩ | ⟨_, _, _, e⟩ <;>
    simp [e, finishOp, startPoll, enterBody, pollAnswer_events]

/-! ### Accepting -/

theorem accept_idle {r : Request} {position : Seq} (h : s.seq = .idle) :
    accept r position s = { s with req := some r, seq := position } := by
  unfold accept; rw [if_pos h]

theorem accept_busy {r : Request} {position : Seq} (h : s.seq ≠ .idle) :
    accept r position s = { s with port := .request r :: s.port } := by
  unfold accept; rw [if_neg h]

/-- Accepting a request at IDLE latches it and goes to its start, or to the emission where TRANSACT returns at once. -/
theorem exec_request_idle (r : Request) (h : s.seq = .idle) :
    ∃ r' q, (q = .start ∨ q = .emit (.ok [])) ∧ exec (decodeRequest r) s = .next { s with req := some r', seq := q } := by
  unfold decodeRequest
  split <;> simp only [exec, execReset, execReadId, execReadUid, execReadData, execErase64kb, execProgramPage, execProgram,
    execTransact, accept_idle s h] <;> refine ⟨_, _, ?_, rfl⟩
  case h_8 => split_ifs <;> simp
  all_goals exact .inl rfl

/-! ### A transaction -/

/-- Everything a transaction line can do up to its first transport call. -/
theorem runTransact_cases (f : Frame) :
    (frameEmpty f = true ∧ runTransact f s = returnTransact [] s) ∨
    (frameEmpty f = false ∧ frameTooLong f = true ∧
      runTransact f s = raiseErr (.invalidArgument (.wbytes f.wbytes)) s) ∨
    (frameEmpty f = false ∧ frameTooLong f = false ∧ runTransact f s = sendTransact f s) := by
  unfold runTransact
  cases h : frameEmpty f <;> cases h2 : frameTooLong f <;> simp

/-- The SET_REGISTER write of a transaction. -/
theorem sendTransact_eq (f : Frame) :
    sendTransact f s =
      { s with
        td := describe f.wbytes.length f.rdLen f.dummy
        rb := transactBlock s.cfg (describe f.wbytes.length f.rdLen f.dummy)
        env := (answerWrite (setPacket s.cfg f) s).2
        events := .wrote (setPacket s.cfg f) s.cfg.timeoutMs (answerWrite (setPacket s.cfg f) s).1 :: s.events
        seq := .wrote (setPacket s.cfg f).length (answerWrite (setPacket s.cfg f) s).1 (afterSet f) } := rfl

/-! ### The computation behind an event -/

/-- Behind a write that was taken whole the line that follows stands. -/
theorem afterWrite_of_taken (len : Nat) (next : Line) : afterWrite len (.count len) next s = goLine next s := by
  unfold afterWrite; rw [checkWrite_count]

/-- Everything the check of a write can do. -/
theorem afterWrite_cases (len : Nat) (a : WriteAnswer) (next : Line) :
    (a = .count len ∧ afterWrite len a next s = goLine next s) ∨
    (∃ e, checkWrite len a = some e ∧ afterWrite len a next s = raiseErr e s) := by
  unfold afterWrite
  cases h : checkWrite len a with
  | none => exact .inl ⟨checkWrite_eq_none.1 h, rfl⟩
  | some e => exact .inr ⟨e, rfl, rfl⟩

/-- Everything the check of a READ_DATA answer can do. -/
theorem afterData_cases (a : ReadAnswer) :
    (∃ e, checkRead a = .error e ∧ afterData a s = raiseErr e s) ∨
    (∃ c p, checkRead a = .ok (c, p) ∧ p.length ≠ expectedBytes s.cfg s.rb ∧
      afterData a s = raiseErr (.lengthAccounting (expectedBytes s.cfg s.rb) p.length) s) ∨
    (∃ c p, checkRead a = .ok (c, p) ∧ p.length = expectedBytes s.cfg s.rb ∧
      afterData a s = { s with data := p, seq := readRegisterLine }) := by
  unfold afterData
  cases h : checkRead a with
  | error e => exact .inl ⟨e, rfl, rfl⟩
  | ok x =>
    obtain ⟨c, p⟩ := x
    by_cases hl : p.length = expectedBytes s.cfg s.rb
    · exact .inr (.inr ⟨c, p, rfl, hl, by simp [hl]⟩)
    · exact .inr (.inl ⟨c, p, rfl, hl, by simp [hl]⟩)

/-- Everything the check of a READ_REGISTER answer can do: an error is raised, or TRANSACT returns. -/
theorem afterBlock_cases (a : ReadAnswer) :
    (∃ e, afterBlock a s = raiseErr e s) ∨
    (∃ c p back, checkRead a = .ok (c, p) ∧ deserialize p = .ok back ∧ statusWord s.cfg back = s.cfg.sentinel ∧
      afterBlock a s = returnTransact s.data s) := by
  unfold afterBlock
  cases h : checkRead a with
  | error e => exact .inl ⟨e, rfl⟩
  | ok x =>
    obtain ⟨c, p⟩ := x
    simp only
    cases hd : deserialize p with
    | error e => exact .inl ⟨e, rfl⟩
    | ok back =>
      by_cases hs : statusWord s.cfg back = s.cfg.sentinel
      · exact .inr ⟨c, p, back, rfl, hd, hs, by simp [statusOk, hs]⟩
      · exact .inl ⟨_, by simp [statusOk, hs]; rfl⟩

/-- Everything the head of an operation can do. -/
theorem startOp_cases :
    (currentOp s = some .reset ∧ startOp s = startReset s) ∨
    (∃ f, (f = rdidFrame ∨ f = rduidFrame) ∧ startOp s = { s with seq := .frame f }) ∨
    (∃ e, startOp s = raiseErr e s) ∨
    (∃ a n, currentOp s = some (.readData a n) ∧ startOp s = readLoop a n { s with acc := [] }) ∨
    (mutating (currentOp s) = true ∧ startOp s = enterScope s) ∨
    (∃ a p n, currentOp s = some (.program a p n) ∧ startOp s = programLoop a p n 0 s) ∨
    (∃ f, frameEmpty f = false ∧ startOp s = issueFrame f s) ∨
    startOp s = finishOp [] s := by
  unfold startOp startReadId startReadUid startReadData startErase64kb startProgramPage startProgram startTransact
  cases h : currentOp s with
  | none => simp
  | some i =>
    cases i <;> simp only [mutating]
    case reset => simp
    case readId => exact .inr (.inl ⟨_, .inl rfl, rfl⟩)
    case readUid => exact .inr (.inl ⟨_, .inr rfl, rfl⟩)
    case readData a n =>
      split_ifs
      · exact .inr (.inr (.inl ⟨_, rfl⟩))
      · exact .inr (.inr (.inr (.inl ⟨a, n, rfl, rfl⟩)))
    case erase64kb a =>
      split_ifs
      · exact .inr (.inr (.inl ⟨_, rfl⟩))
      · exact .inr (.inr (.inr (.inr (.inl ⟨trivial, rfl⟩))))
    case programPage a p =>
      rcases beginPage_cases s a with ⟨_, e⟩ | ⟨_, e⟩ <;> rw [e]
      · exact .inr (.inr (.inr (.inr (.inl ⟨trivial, rfl⟩))))
      · exact .inr (.inr (.inl ⟨_, rfl⟩))
    case program a p n =>
      split_ifs
      · exact .inr (.inr (.inl ⟨_, rfl⟩))
      · exact .inr (.inr (.inl ⟨_, rfl⟩))
      · exact .inr (.inr (.inr (.inr (.inr (.inl ⟨a, p, n, rfl, rfl⟩)))))
    case transact w n d =>
      cases hf : frameEmpty ⟨w, n, d⟩
      · exact .inr (.inr (.inr (.inr (.inr (.inr (.inl ⟨_, hf, by simp⟩))))))
      · simp
    all_goals simp

/-- Behind which event the block stands decides what it computes. -/
theorem proceed_cases :
    (s.seq = .start ∧ proceed s = startOp s) ∨
    (∃ n a next, s.seq = .wrote n a next ∧ proceed s = afterWrite n a next s) ∨
    (∃ a, s.seq = .gotData a ∧ proceed s = afterData a s) ∨
    (∃ a, s.seq = .gotBlock a ∧ proceed s = afterBlock a s) ∨
    (((∃ f, s.seq = .frame f) ∨ (∃ raw, s.seq = .packet raw) ∨ s.seq = .recvData ∨ s.seq = .recvBlock ∨
        (∃ r, s.seq = .emit r) ∨ s.seq = .idle) ∧ proceed s = s) := by
  unfold proceed
  cases h : s.seq <;> simp

@[simp] theorem startOp_cfg : (startOp s).cfg = s.cfg := by
  rcases startOp_cases s with ⟨_, e⟩ | ⟨_, _, e⟩ | ⟨_, e⟩ | ⟨_, _, _, e⟩ | ⟨_, e⟩ | ⟨_, _, _, _, e⟩ | ⟨_, _, e⟩ | e <;>
    simp [e, startReset]
@[simp] theorem startOp_req : (startOp s).req = s.req := by
  rcases startOp_cases s with ⟨_, e⟩ | ⟨_, _, e⟩ | ⟨_, e⟩ | ⟨_, _, _, e⟩ | ⟨_, e⟩ | ⟨_, _, _, _, e⟩ | ⟨_, _, e⟩ | e <;>
    simp [e, startReset]
@[simp] theorem startOp_td : (startOp s).td = s.td := by
  rcases startOp_cases s with ⟨_, e⟩ | ⟨_, _, e⟩ | ⟨_, e⟩ | ⟨_, _, _, e⟩ | ⟨_, e⟩ | ⟨_, _, _, _, e⟩ | ⟨_, _, e⟩ | e <;>
    simp [e, startReset]
@[simp] theorem startOp_result : (startOp s).result = s.result := by
  rcases startOp_cases s with ⟨_, e⟩ | ⟨_, _, e⟩ | ⟨_, e⟩ | ⟨_, _, _, e⟩ | ⟨_, e⟩ | ⟨_, _, _, _, e⟩ | ⟨_, _, e⟩ | e <;>
    simp [e, startReset]
@[simp] theorem startOp_session : (startOp s).session = s.session := by
  rcases startOp_cases s with ⟨_, e⟩ | ⟨_, _, e⟩ | ⟨_, e⟩ | ⟨_, _, _, e⟩ | ⟨_, e⟩ | ⟨_, _, _, _, e⟩ | ⟨_, _, e⟩ | e <;>
    simp [e, startReset]
@[simp] theorem startOp_port : (startOp s).port = s.port := by
  rcases startOp_cases s with ⟨_, e⟩ | ⟨_, _, e⟩ | ⟨_, e⟩ | ⟨_, _, _, e⟩ | ⟨_, e⟩ | ⟨_, _, _, _, e⟩ | ⟨_, _, e⟩ | e <;>
    simp [e, startReset]
@[simp] theorem startOp_env : (startOp s).env = s.env := by
  rcases startOp_cases s with ⟨_, e⟩ | ⟨_, _, e⟩ | ⟨_, e⟩ | ⟨_, _, _, e⟩ | ⟨_, e⟩ | ⟨_, _, _, _, e⟩ | ⟨_, _, e⟩ | e <;>
    simp [e, startReset]
@[simp] theorem startOp_events : (startOp s).events = s.events := by
  rcases startOp_cases s with ⟨_, e⟩ | ⟨_, _, e⟩ | ⟨_, e⟩ | ⟨_, _, _, e⟩ | ⟨_, e⟩ | ⟨_, _, _, _, e⟩ | ⟨_, _, e⟩ | e <;>
    simp [e, startReset]

@[simp] theorem afterWrite_cfg (n : Nat) (a : WriteAnswer) (next : Line) : (afterWrite n a next s).cfg = s.cfg := by
  rcases afterWrite_cases s n a next with ⟨_, e⟩ | ⟨_, _, e⟩ <;> simp [e]
@[simp] theorem afterWrite_req (n : Nat) (a : WriteAnswer) (next : Line) : (afterWrite n a next s).req = s.req := by
  rcases afterWrite_cases s n a next with ⟨_, e⟩ | ⟨_, _, e⟩ <;> simp [e]
@[simp] theorem afterWrite_td (n : Nat) (a : WriteAnswer) (next : Line) : (afterWrite n a next s).td = s.td := by
  rcases afterWrite_cases s n a next with ⟨_, e⟩ | ⟨_, _, e⟩ <;> simp [e]
@[simp] theorem afterWrite_result (n : Nat) (a : WriteAnswer) (next : Line) : (afterWrite n a next s).result = s.result := by
  rcases afterWrite_cases s n a next with ⟨_, e⟩ | ⟨_, _, e⟩ <;> simp [e]
@[simp] theorem afterWrite_session (n : Nat) (a : WriteAnswer) (next : Line) : (afterWrite n a next s).session = s.session := by
  rcases afterWrite_cases s n a next with ⟨_, e⟩ | ⟨_, _, e⟩ <;> simp [e]
@[simp] theorem afterWrite_port (n : Nat) (a : WriteAnswer) (next : Line) : (afterWrite n a next s).port = s.port := by
  rcases afterWrite_cases s n a next with ⟨_, e⟩ | ⟨_, _, e⟩ <;> simp [e]
@[simp] theorem afterWrite_env (n : Nat) (a : WriteAnswer) (next : Line) : (afterWrite n a next s).env = s.env := by
  rcases afterWrite_cases s n a next with ⟨_, e⟩ | ⟨_, _, e⟩ <;> simp [e]
@[simp] theorem afterWrite_events (n : Nat) (a : WriteAnswer) (next : Line) : (afterWrite n a next s).events = s.events := by
  rcases afterWrite_cases s n a next with ⟨_, e⟩ | ⟨_, _, e⟩ <;> simp [e]

@[simp] theorem afterData_cfg (a : ReadAnswer) : (afterData a s).cfg = s.cfg := by
  rcases afterData_cases s a with ⟨_, _, e⟩ | ⟨_, _, _, _, e⟩ | ⟨_, _, _, _, e⟩ <;> simp [e]
@[simp] theorem afterData_req (a : ReadAnswer) : (afterData a s).req = s.req := by
  rcases afterData_cases s a with ⟨_, _, e⟩ | ⟨_, _, _, _, e⟩ | ⟨_, _, _, _, e⟩ <;> simp [e]
@[simp] theorem afterData_td (a : ReadAnswer) : (afterData a s).td = s.td := by
  rcases afterData_cases s a with ⟨_, _, e⟩ | ⟨_, _, _, _, e⟩ | ⟨_, _, _, _, e⟩ <;> simp [e]
@[simp] theorem afterData_result (a : ReadAnswer) : (afterData a s).result = s.result := by
  rcases afterData_cases s a with ⟨_, _, e⟩ | ⟨_, _, _, _, e⟩ | ⟨_, _, _, _, e⟩ <;> simp [e]
@[simp] theorem afterData_session (a : ReadAnswer) : (afterData a s).session = s.session := by
  rcases afterData_cases s a with ⟨_, _, e⟩ | ⟨_, _, _, _, e⟩ | ⟨_, _, _, _, e⟩ <;> simp [e]
@[simp] theorem afterData_port (a : ReadAnswer) : (afterData a s).port = s.port := by
  rcases afterData_cases s a with ⟨_, _, e⟩ | ⟨_, _, _, _, e⟩ | ⟨_, _, _, _, e⟩ <;> simp [e]
@[simp] theorem afterData_env (a : ReadAnswer) : (afterData a s).env = s.env := by
  rcases afterData_cases s a with ⟨_, _, e⟩ | ⟨_, _, _, _, e⟩ | ⟨_, _, _, _, e⟩ <;> simp [e]
@[simp] theorem afterData_events (a : ReadAnswer) : (afterData a s).events = s.events := by
  rcases afterData_cases s a with ⟨_, _, e⟩ | ⟨_, _, _, _, e⟩ | ⟨_, _, _, _, e⟩ <;> simp [e]

@[simp] theorem afterBlock_cfg (a : ReadAnswer) : (afterBlock a s).cfg = s.cfg := by
  rcases afterBlock_cases s a with ⟨_, e⟩ | ⟨_, _, _, _, _, _, e⟩ <;> simp [e]
@[simp] theorem afterBlock_req (a : ReadAnswer) : (afterBlock a s).req = s.req := by
  rcases afterBlock_cases s a with ⟨_, e⟩ | ⟨_, _, _, _, _, _, e⟩ <;> simp [e]
@[simp] theorem afterBlock_td (a : ReadAnswer) : (afterBlock a s).td = s.td := by
  rcases afterBlock_cases s a with ⟨_, e⟩ | ⟨_, _, _, _, _, _, e⟩ <;> simp [e]
@[simp] theorem afterBlock_result (a : ReadAnswer) : (afterBlock a s).result = s.result := by
  rcases afterBlock_cases s a with ⟨_, e⟩ | ⟨_, _, _, _, _, _, e⟩ <;> simp [e]
@[simp] theorem afterBlock_session (a : ReadAnswer) : (afterBlock a s).session = s.session := by
  rcases afterBlock_cases s a with ⟨_, e⟩ | ⟨_, _, _, _, _, _, e⟩ <;> simp [e]
@[simp] theorem afterBlock_port (a : ReadAnswer) : (afterBlock a s).port = s.port := by
  rcases afterBlock_cases s a with ⟨_, e⟩ | ⟨_, _, _, _, _, _, e⟩ <;> simp [e]
@[simp] theorem afterBlock_env (a : ReadAnswer) : (afterBlock a s).env = s.env := by
  rcases afterBlock_cases s a with ⟨_, e⟩ | ⟨_, _, _, _, _, _, e⟩ <;> simp [e]
@[simp] theorem afterBlock_events (a : ReadAnswer) : (afterBlock a s).events = s.events := by
  rcases afterBlock_cases s a with ⟨_, e⟩ | ⟨_, _, _, _, _, _, e⟩ <;> simp [e]

@[simp] theorem proceed_cfg : (proceed s).cfg = s.cfg := by
  rcases proceed_cases s with ⟨_, e⟩ | ⟨_, _, _, _, e⟩ | ⟨_, _, e⟩ | ⟨_, _, e⟩ | ⟨_, e⟩ <;> simp [e]
@[simp] theorem proceed_req : (proceed s).req = s.req := by
  rcases proceed_cases s with ⟨_, e⟩ | ⟨_, _, _, _, e⟩ | ⟨_, _, e⟩ | ⟨_, _, e⟩ | ⟨_, e⟩ <;> simp [e]
@[simp] theorem proceed_td : (proceed s).td = s.td := by
  rcases proceed_cases s with ⟨_, e⟩ | ⟨_, _, _, _, e⟩ | ⟨_, _, e⟩ | ⟨_, _, e⟩ | ⟨_, e⟩ <;> simp [e]
@[simp] theorem proceed_result : (proceed s).result = s.result := by
  rcases proceed_cases s with ⟨_, e⟩ | ⟨_, _, _, _, e⟩ | ⟨_, _, e⟩ | ⟨_, _, e⟩ | ⟨_, e⟩ <;> simp [e]
@[simp] theorem proceed_session : (proceed s).session = s.session := by
  rcases proceed_cases s with ⟨_, e⟩ | ⟨_, _, _, _, e⟩ | ⟨_, _, e⟩ | ⟨_, _, e⟩ | ⟨_, e⟩ <;> simp [e]
@[simp] theorem proceed_port : (proceed s).port = s.port := by
  rcases proceed_cases s with ⟨_, e⟩ | ⟨_, _, _, _, e⟩ | ⟨_, _, e⟩ | ⟨_, _, e⟩ | ⟨_, e⟩ <;> simp [e]
@[simp] theorem proceed_env : (proceed s).env = s.env := by
  rcases proceed_cases s with ⟨_, e⟩ | ⟨_, _, _, _, e⟩ | ⟨_, _, e⟩ | ⟨_, _, e⟩ | ⟨_, e⟩ <;> simp [e]
@[simp] theorem proceed_events : (proceed s).events = s.events := by
  rcases proceed_cases s with ⟨_, e⟩ | ⟨_, _, _, _, e⟩ | ⟨_, _, e⟩ | ⟨_, _, e⟩ | ⟨_, e⟩ <;> simp [e]

/-! ### The step -/

theorem step_of_fetch_instr {e : Encoded} {t : State} {i : Instr} (hf : fetch s = .instr e t)
    (hd : decode e = .ok i) : step s = exec i t := by
  unfold step runFetched; rw [hf]; simp only [hd]

/-- A flash command that decodes from a frame encodes to it. -/
theorem encode_of_decodeFrame {f : Frame} {i : Instr} (h : decodeFrame f = .ok i) : encode i = .frame f := by
  obtain ⟨w, r, d⟩ := f
  unfold decodeFrame at h
  simp only at h
  split at h
  · unfold decodeBareFrame at h
    split_ifs at h <;> cases h <;> simp_all [encode]
  · unfold decodeAddrFrame at h
    split_ifs at h <;> cases h <;> simp_all [encode, be24_fromBe24]
  · cases h

theorem fetch_no_input (h : s.port = []) : fetch s = fetchSeq s := by
  unfold fetch; rw [h]

theorem decode_frame {f : Frame} : decode (.frame f) = decodeFrame f := rfl

theorem decode_packet {raw : List Byte} : decode (.packet raw) = decodeWire raw := rfl

/-- A flash command runs as the transaction of its frame. -/
theorem exec_of_encode_frame {i : Instr} {f : Frame} (h : encode i = .frame f) :
    exec i s = .next (runTransact f s) := by
  cases i <;> simp only [encode, reduceCtorEq, Encoded.frame.injEq] at h <;> subst h <;> rfl

/-- At a frame line the sequencer runs the frame's transaction, whether or not it is a row of the opcode table. -/
theorem runFetched_frame {f : Frame} (h : s.seq = .frame f) :
    runFetched (fetchLine s) = .next (runTransact f s) := by
  unfold fetchLine
  rw [h]
  simp only
  cases hd : decodeFrame f with
  | error e => rfl
  | ok i =>
    simp only [runFetched, decode, hd]
    exact exec_of_encode_frame s (encode_of_decodeFrame hd)

/-- The packets that are instructions are the three wire commands. -/
theorem decodeWire_cases {raw : List Byte} {i : Instr} (h : decodeWire raw = .ok i) :
    (∃ p, i = .setRegister p) ∨ i = .readRegister ∨ i = .readDataPkt := by
  unfold decodeWire at h
  split at h
  · cases h
  · split_ifs at h <;> cases h <;> simp

/-- Everything the event at a line can do, where the step answers a next state. -/
theorem runFetched_fetchLine_cases {t : State} (h : runFetched (fetchLine s) = .next t) :
    (∃ f, s.seq = .frame f ∧ t = runTransact f s) ∨
    (∃ raw c p next, s.seq = .packet raw ∧ t = sendPacket c p next s ∧
      (decodeWire raw = .ok (.setRegister p) ∧ c = cmdSetRegister ∧ next = .returnEmpty ∨
        decodeWire raw = .ok .readRegister ∧ c = cmdReadRegister ∧ p = [] ∧ next = .recvBlock ∨
        decodeWire raw = .ok .readDataPkt ∧ c = cmdReadData ∧ p = [] ∧ next = .recvData)) ∨
    (s.seq = .recvData ∧ t = recvDataStep s) ∨
    (s.seq = .recvBlock ∧ t = recvBlockStep s) ∨
    (∃ r, s.seq = .emit r ∧ t = emitStep r s) ∨
    ((s.seq = .idle ∨ s.seq = .start ∨ (∃ n a next, s.seq = .wrote n a next) ∨ (∃ a, s.seq = .gotData a) ∨
      ∃ a, s.seq = .gotBlock a) ∧ t = s) := by
  cases hq : s.seq with
  | frame f => rw [runFetched_frame s hq] at h; cases h; exact .inl ⟨f, rfl, rfl⟩
  | packet raw =>
    simp only [fetchLine, hq, runFetched, decode] at h
    cases hd : decodeWire raw with
    | error => rw [hd] at h; cases h
    | ok i =>
      rw [hd] at h
      refine .inr (.inl ?_)
      rcases decodeWire_cases hd with ⟨p, rfl⟩ | rfl | rfl <;> cases h <;> exact ⟨raw, _, _, _, rfl, rfl, by simp [hd]⟩
  | _ => simp only [fetchLine, hq, runFetched, Host.Outcome.next.injEq] at h; subst h; simp

/-- Everything a step can do with the request port: nothing there or nothing taken, and the sequencer goes on; a session
action is taken; a request is taken. -/
theorem step_cases :
    (∃ t, (t = s ∨ ∃ rest, s.port = .nothing :: rest ∧ t = { s with port := rest }) ∧
      step s = runFetched (fetchSeq t)) ∨
    (∃ b rest, s.port = .session b :: rest ∧ (b = 1#1 ∨ s.seq = .idle) ∧
      step s = exec (decodeSession b) { s with port := rest }) ∨
    (∃ r rest, s.port = .request r :: rest ∧ s.seq = .idle ∧
      step s = exec (decodeRequest r) { s with port := rest }) := by
  unfold step fetch
  cases hp : s.port with
  | nil => exact .inl ⟨s, .inl rfl, rfl⟩
  | cons x rest =>
    cases x with
    | nothing => exact .inl ⟨_, .inr ⟨rest, rfl, rfl⟩, rfl⟩
    | session b =>
      simp only
      split_ifs with h
      · exact .inr (.inl ⟨b, rest, rfl, h, rfl⟩)
      · exact .inl ⟨s, .inl rfl, rfl⟩
    | request r =>
      simp only
      split_ifs with h
      · exact .inr (.inr ⟨r, rest, rfl, h, rfl⟩)
      · exact .inl ⟨s, .inl rfl, rfl⟩

/-! ### `proceed` stops at a line -/

/-- A position that has an event of its own, or IDLE. -/
def atLine : Seq → Bool
  | .start | .wrote _ _ _ | .gotData _ | .gotBlock _ => false
  | _ => true

theorem raiseErr_at_line (e : Err) : atLine (raiseErr e s).seq = true := by
  rcases raiseErr_cases s e with ⟨_, h, _⟩ | ⟨_, h, _⟩ <;> rw [h] <;> rfl

theorem issueFrame_at_line (f : Frame) : atLine (issueFrame f s).seq = true := by
  rcases issueFrame_cases s f with ⟨_, h⟩ | ⟨_, h⟩ <;> rw [h]
  · rfl
  · exact raiseErr_at_line _ _

theorem readLoop_at_line (a n : Nat) : atLine (readLoop a n s).seq = true := by
  rcases readLoop_cases s a n with ⟨_, h⟩ | ⟨_, h⟩ | ⟨_, h⟩ <;> rw [h]
  · rfl
  · exact raiseErr_at_line _ _
  · rfl

theorem beginPage_at_line (a : Nat) : atLine (beginPage a s).seq = true := by
  rcases beginPage_cases s a with ⟨_, h⟩ | ⟨_, h⟩ <;> rw [h]
  · rfl
  · exact raiseErr_at_line _ _

theorem programLoop_at_line (a : Nat) (p : List Byte) (n k : Nat) : atLine (programLoop a p n k s).seq = true := by
  rcases programLoop_cases s a p n k with ⟨_, h⟩ | ⟨_, h⟩ <;> rw [h]
  · exact beginPage_at_line _ _
  · rfl

theorem returnTransact_at_line (v : List Byte) : atLine (returnTransact v s).seq = true := by
  rcases returnTransact_cases s v with ⟨_, _, _, _, e⟩ | ⟨_, _, e⟩ | ⟨_, e⟩ | ⟨_, e⟩ | ⟨_, e⟩ | ⟨_, _, _, e⟩ |
    ⟨_, _, _, _, _, _, e⟩ | ⟨_, _, _, e⟩ <;> rw [e]
  · exact readLoop_at_line _ _ _
  · exact issueFrame_at_line _ _
  · rfl
  · rfl
  · rcases pollAnswer_cases s v with ⟨_, e⟩ | ⟨_, _, _, _, e⟩ | ⟨_, _, _, _, e⟩ <;> rw [e] <;> rfl
  · exact raiseErr_at_line _ _
  · exact programLoop_at_line _ _ _ _ _
  · rfl

theorem startOp_at_line : atLine (startOp s).seq = true := by
  rcases startOp_cases s with ⟨_, e⟩ | ⟨_, _, e⟩ | ⟨_, e⟩ | ⟨_, _, _, e⟩ | ⟨_, e⟩ | ⟨_, _, _, _, e⟩ | ⟨_, _, e⟩ | e <;> rw [e]
  · rfl
  · rfl
  · exact raiseErr_at_line _ _
  · exact readLoop_at_line _ _ _
  · rfl
  · exact programLoop_at_line _ _ _ _ _
  · exact issueFrame_at_line _ _
  · rfl

/-- The pure computation of a step ends at a line with an event of its own, or at IDLE. -/
theorem proceed_at_line : atLine (proceed s).seq = true := by
  rcases proceed_cases s with ⟨_, e⟩ | ⟨n, a, next, _, e⟩ | ⟨a, _, e⟩ | ⟨a, _, e⟩ | ⟨h, e⟩ <;> rw [e]
  · exact startOp_at_line s
  · rcases afterWrite_cases s n a next with ⟨_, e⟩ | ⟨_, _, e⟩ <;> rw [e]
    · cases next <;> rfl
    · exact raiseErr_at_line _ _
  · rcases afterData_cases s a with ⟨_, _, e⟩ | ⟨_, _, _, _, e⟩ | ⟨_, _, _, _, e⟩ <;> rw [e]
    · exact raiseErr_at_line _ _
    · exact raiseErr_at_line _ _
    · rfl
  · rcases afterBlock_cases s a with ⟨_, e⟩ | ⟨_, _, _, _, _, _, e⟩ <;> rw [e]
    · exact raiseErr_at_line _ _
    · exact returnTransact_at_line _ _
  · rcases h with ⟨_, h⟩ | ⟨_, h⟩ | h | h | ⟨_, h⟩ | h <;> rw [h] <;> rfl

end Sys2Proof.Machine
end

