-- ==== Sys2Proof/Laws/PerInstr.lean ====
section
/-! SUPPORT. The family EncodingMatchesTable: the encoding of every instruction carries the word its row of
spec/opcode_table.json gives it. -/

namespace Sys2Proof.Laws.EncodingMatchesTable

open Sys2Proof.Machine

/-- The bits the opcode table looks at: `op`, the session signal, the command word, or the opcode byte. -/
def tableBits : Encoded → Nat
  | .request r => r.op.toNat
  | .session b => b.toNat
  | .packet raw => (fromLe32 raw).toNat
  | .frame f => (f.wbytes.getD 0 0).toNat

/-- The `match` word of the instruction's row. -/
def rowMatch : Instr → Nat
  | .reset => 0x0
  | .readId => 0x1
  | .readUid => 0x2
  | .readData _ _ => 0x3
  | .erase64kb _ => 0x4
  | .programPage _ _ => 0x5
  | .program _ _ _ => 0x6
  | .transact _ _ _ => 0x7
  | .openSession => 0x0
  | .closeSession => 0x1
  | .setRegister _ => 0x00020000
  | .readRegister => 0x00020001
  | .readDataPkt => 0x00020002
  | .rdid => 0x9F
  | .rduid => 0x4B
  | .fastRead _ _ => 0x0B
  | .wren => 0x06
  | .rdsr => 0x05
  | .wrdi => 0x04
  | .blockErase64kb _ => 0xD8
  | .pageProgram _ _ => 0x02

/-- The encoding of `i` carries its row's word. -/
def Statement (i : Instr) : Prop := tableBits (encode i) = rowMatch i

theorem reset : Statement .reset := rfl
theorem readId : Statement .readId := rfl
theorem readUid : Statement .readUid := rfl
theorem readData (a n : Nat) : Statement (.readData a n) := rfl
theorem erase64kb (a : Nat) : Statement (.erase64kb a) := rfl
theorem programPage (a : Nat) (p : List Byte) : Statement (.programPage a p) := rfl
theorem program (a : Nat) (p : List Byte) (n : Nat) : Statement (.program a p n) := rfl
theorem transact (w : List Byte) (r d : Nat) : Statement (.transact w r d) := rfl
theorem openSession : Statement .openSession := rfl
theorem closeSession : Statement .closeSession := rfl
theorem setRegister (p : List Byte) : Statement (.setRegister p) := by
  show (fromLe32 (encodePacket cmdSetRegister p)).toNat = _
  rw [encodePacket, List.append_assoc, fromLe32_le32_append]
  rfl
theorem readRegister : Statement .readRegister := rfl
theorem readDataPkt : Statement .readDataPkt := rfl
theorem rdid : Statement .rdid := rfl
theorem rduid : Statement .rduid := rfl
theorem fastRead (a n : Nat) : Statement (.fastRead a n) := rfl
theorem wren : Statement .wren := rfl
theorem rdsr : Statement .rdsr := rfl
theorem wrdi : Statement .wrdi := rfl
theorem blockErase64kb (a : Nat) : Statement (.blockErase64kb a) := rfl
theorem pageProgram (a : Nat) (p : List Byte) : Statement (.pageProgram a p) := rfl

end Sys2Proof.Laws.EncodingMatchesTable
end

