-- ==== Sys2Proof/Laws/Proceed.lean ====
section
/-! SUPPORT. The computation behind an event reads nothing of the two ports: it commutes with any change of the request port,
the session, the environment, the events and RESULT. -/

namespace Sys2Proof.Machine

/-- The part of a state that belongs to the two ports. -/
structure Outside where
  result : Option Result
  session : Session
  port : List PortInput
  env : Env
  events : List Event

/-- The state with another outside. -/
def State.withOutside (s : State) (o : Outside) : State :=
  { s with result := o.result, session := o.session, port := o.port, env := o.env, events := o.events }

variable (s : State) (o : Outside)

@[simp] theorem withOutside_cfg : (s.withOutside o).cfg = s.cfg := rfl
@[simp] theorem withOutside_seq : (s.withOutside o).seq = s.seq := rfl
@[simp] theorem withOutside_rb : (s.withOutside o).rb = s.rb := rfl
@[simp] theorem withOutside_data : (s.withOutside o).data = s.data := rfl
@[simp] theorem withOutside_acc : (s.withOutside o).acc = s.acc := rfl
@[simp] theorem withOutside_k : (s.withOutside o).k = s.k := rfl
@[simp] theorem withOutside_scope : (s.withOutside o).scope = s.scope := rfl
@[simp] theorem withOutside_pendingErr : (s.withOutside o).pendingErr = s.pendingErr := rfl
@[simp] theorem currentOp_withOutside : currentOp (s.withOutside o) = currentOp s := rfl

theorem raiseErr_withOutside (e : Err) : raiseErr e (s.withOutside o) = (raiseErr e s).withOutside o := by
  unfold raiseErr
  rw [withOutside_scope]
  cases s.scope <;> rfl

theorem issueFrame_withOutside (f : Frame) : issueFrame f (s.withOutside o) = (issueFrame f s).withOutside o := by
  unfold issueFrame
  split_ifs
  · exact raiseErr_withOutside s o _
  · rfl

theorem readLoop_withOutside (a n : Nat) : readLoop a n (s.withOutside o) = (readLoop a n s).withOutside o := by
  unfold readLoop
  rw [withOutside_acc]
  split_ifs
  · rfl
  · exact raiseErr_withOutside s o _
  · rfl

theorem beginPage_withOutside (a : Nat) : beginPage a (s.withOutside o) = (beginPage a s).withOutside o := by
  unfold beginPage
  split_ifs
  · exact raiseErr_withOutside s o _
  · rfl

theorem programLoop_withOutside (a : Nat) (p : List Byte) (n k : Nat) :
    programLoop a p n k (s.withOutside o) = (programLoop a p n k s).withOutside o := by
  unfold programLoop
  dsimp only
  split_ifs
  · exact beginPage_withOutside { s with k := skipBlank p n p.length k } o _
  · rfl

theorem pollAnswer_withOutside (v : List Byte) :
    pollAnswer v (s.withOutside o) = (pollAnswer v s).withOutside o := by
  unfold pollAnswer
  split
  · rfl
  · split_ifs <;> rfl

theorem closeScope_withOutside : closeScope (s.withOutside o) = (closeScope s).withOutside o := by
  unfold closeScope
  rw [withOutside_pendingErr, currentOp_withOutside]
  split
  · exact raiseErr_withOutside { s with scope := .closed, pendingErr := none } o _
  · split
    · exact programLoop_withOutside { s with scope := .closed } o _ _ _ _
    · rfl

theorem returnOutside_withOutside (v : List Byte) :
    returnOutside v (s.withOutside o) = (returnOutside v s).withOutside o := by
  unfold returnOutside
  rw [currentOp_withOutside]
  split
  · exact readLoop_withOutside { s with acc := s.acc ++ v } o _ _
  · exact issueFrame_withOutside { s with scope := .body, pendingErr := none } o _
  · exact issueFrame_withOutside { s with scope := .body, pendingErr := none } o _
  · exact issueFrame_withOutside { s with scope := .body, pendingErr := none } o _
  · rfl

theorem returnTransact_withOutside (v : List Byte) :
    returnTransact v (s.withOutside o) = (returnTransact v s).withOutside o := by
  unfold returnTransact
  rw [withOutside_scope]
  cases s.scope with
  | closed => exact returnOutside_withOutside s o v
  | body => rfl
  | polling => exact pollAnswer_withOutside s o v
  | closing => exact closeScope_withOutside s o

theorem startOp_withOutside : startOp (s.withOutside o) = (startOp s).withOutside o := by
  unfold startOp
  rw [currentOp_withOutside]
  split
  · rfl
  · rfl
  · rfl
  · unfold startReadData
    split_ifs
    · exact raiseErr_withOutside s o _
    · exact readLoop_withOutside { s with acc := [] } o _ _
  · unfold startErase64kb
    split_ifs
    · exact raiseErr_withOutside s o _
    · rfl
  · exact beginPage_withOutside s o _
  · unfold startProgram
    split_ifs
    · exact raiseErr_withOutside s o _
    · exact raiseErr_withOutside s o _
    · exact programLoop_withOutside s o _ _ _ _
  · unfold startTransact
    split_ifs
    · rfl
    · exact issueFrame_withOutside s o _
  · rfl

/-- The computation behind an event reads nothing of the two ports (R33: it has no observable intermediate state). -/
theorem proceed_withOutside : proceed (s.withOutside o) = (proceed s).withOutside o := by
  unfold proceed
  rw [withOutside_seq]
  cases s.seq with
  | start => exact startOp_withOutside s o
  | wrote n a next =>
    rcases afterWrite_cases s n a next with ⟨h, e⟩ | ⟨x, h, e⟩ <;> dsimp only <;> rw [e]
    · rw [h, afterWrite_of_taken]
      cases next <;> rfl
    · rw [← raiseErr_withOutside]
      unfold afterWrite
      rw [h]
  | gotData a =>
    dsimp only
    unfold afterData
    split
    · exact raiseErr_withOutside s o _
    · rw [withOutside_cfg, withOutside_rb]
      split_ifs
      · exact raiseErr_withOutside s o _
      · rfl
  | gotBlock a =>
    dsimp only
    unfold afterBlock
    split
    · exact raiseErr_withOutside s o _
    · split
      · exact raiseErr_withOutside s o _
      · rw [withOutside_cfg, withOutside_data]
        split_ifs
        · exact returnTransact_withOutside s o _
        · exact raiseErr_withOutside s o _
  | _ => rfl

/-- In particular it does not read the request port. -/
theorem proceed_withPort (p : List PortInput) : proceed { s with port := p } = { proceed s with port := p } := by
  have h := proceed_withOutside s ⟨s.result, s.session, p, s.env, s.events⟩
  have : (proceed s).withOutside ⟨s.result, s.session, p, s.env, s.events⟩ = { proceed s with port := p } := by
    simp only [State.withOutside, ← proceed_result s, ← proceed_session s, ← proceed_env s, ← proceed_events s]
  exact h.trans this

end Sys2Proof.Machine
end

