-- ==== Sys2Proof/Tests/Slice0.lean ====
section
/-! SUPPORT. Small tests: the well-formedness checks, decoding, one step of each instruction, and for every statement with
hypotheses a witness that meets them. Expected values are the spec's (95_test_vectors.md or the encoding tables). -/

namespace Sys2Proof.Tests

open Sys2Proof.Machine Sys2Proof.Safety

/-! ### Helpers -/

/-- The default configuration with plain values for the parameters that have none. -/
def cfg : Config := defaultConfigWith 1000 1 2

/-- An idle block with an open session and nothing presented. -/
def idle : State := { State.reset with cfg := cfg, session := .opened }

/-- An idle block whose transport has its answers scripted. -/
def scripted (w : List WriteAnswer) (r : List ReadAnswer) : State :=
  { idle with env := { Env.initial with oracle := { Oracle.initial with writes := w, reads := r } } }

/-- An idle block over the reference environment. -/
def refIdle : State := { idle with env := { Env.initial with kind := .reference } }

/-- The same, with the flash write-enabled. -/
def refEnabled : State :=
  { refIdle with env := { refIdle.env with ref := { RefEnv.initial with flash := { RefEnv.initial.flash with wel := true } } } }

/-- The same, with the flash busy for one more poll. -/
def refBusy : State :=
  { refEnabled with env := { refEnabled.env with ref := { RefEnv.initial with flash := { RefEnv.initial.flash with wel := true, busy := 1 } } } }

/-- The block after one instruction, or the same block where it stops. -/
def after (i : Instr) (s : State) : State :=
  match exec i s with
  | .next t => t
  | .fault _ => s
  | .refused _ => s

/-- The block at the line it goes to after one instruction: the computation of the next step is done (R33). -/
def behind (i : Instr) (s : State) : State := proceed (after i s)

/-- The bytes of the newest write. -/
def written (s : State) : List Byte :=
  match s.events with
  | .wrote raw _ _ :: _ => raw
  | _ => []

/-- A read-back block whose Status word is the sentinel. -/
def back : RegBlock := { zeroBlock with x6 := 0x00404000 }

/-- A busy block inside ERASE_64KB's scope, about to poll. -/
def polling : State :=
  { scripted [] [] with seq := .frame rdsrFrame, scope := .polling, req := some { bareRequest 4 with addr := 0x010000 } }

/-! ### Well-formedness: each check refuses an ill-formed term -/

theorem test_wf_set_register_short : (Instr.setRegister (List.replicate 36 0)).wellFormed = false := by decide
theorem test_wf_set_register_unaligned : (Instr.setRegister (List.replicate 41 0)).wellFormed = false := by decide
theorem test_wf_set_register_too_long (p : List Byte) (h : p.length = 4294967296) :
    (Instr.setRegister p).wellFormed = false := by simp [Instr.wellFormed, h]
theorem test_wf_fast_read_address : (Instr.fastRead 0x1000000 1).wellFormed = false := by decide
theorem test_wf_fast_read_no_bytes : (Instr.fastRead 0 0).wellFormed = false := by decide
theorem test_wf_fast_read_beyond_chunk : (Instr.fastRead 0 0x51).wellFormed = false := by decide
theorem test_wf_block_erase_address : (Instr.blockErase64kb 0x1000000).wellFormed = false := by decide
theorem test_wf_page_program_address : (Instr.pageProgram 0x1000000 []).wellFormed = false := by decide

/-- Two names in one slot map. -/
theorem test_wf_slot_twice : ({ cfg with slots := { defaultSlots with x9 := .control } } : Config).slotsOk = false := by decide
/-- Status without a slot. -/
theorem test_wf_status_slot : ({ cfg with slots := { defaultSlots with x6 := .configuration } } : Config).slotsOk = false := by
  decide
/-- A field outside its register. -/
theorem test_wf_layout_range : ({ cfg with layout := [⟨.addr, 1, 32⟩] } : Config).layoutOk = false := by decide
/-- Two fields on one bit. -/
theorem test_wf_layout_overlap : disjointRows [⟨.rdTranCnt, 0, 9⟩, ⟨.dummyCnt, 8, 2⟩] = false := by decide
/-- A field the block writes, not placed. -/
theorem test_wf_layout_missing : ({ cfg with layout := [] } : Config).layoutOk = false := by decide
/-- Two modes with one code. -/
theorem test_wf_mode_twice : ({ cfg with modes := { defaultModes with noData := 1 } } : Config).modesOk = false := by decide
/-- A code too large for its field. -/
theorem test_wf_mode_range : ({ cfg with modes := { defaultModes with noData := 16 } } : Config).modesOk = false := by decide
theorem test_wf_default_config : cfg.wellFormed = true := by decide

/-! ### Decoding words written out from R71, R77, R78 and R80 -/

theorem test_decode_reset : decodeTableWord 3 0b000 = some .reset := by decide
theorem test_decode_read_id : decodeTableWord 3 0b001 = some .readId := by decide
theorem test_decode_read_uid : decodeTableWord 3 0b010 = some .readUid := by decide
theorem test_decode_read_data :
    decode (.request ⟨0b011, 0x123456, 7, 0, 0, 0, [], []⟩) = .ok (.readData 0x123456 7) := by decide
theorem test_decode_erase : decode (.request ⟨0b100, 0x10000, 0, 0, 0, 0, [], []⟩) = .ok (.erase64kb 0x10000) := by decide
theorem test_decode_program_page :
    decode (.request ⟨0b101, 0x200, 0, 0, 0, 0, [], [1, 2]⟩) = .ok (.programPage 0x200 [1, 2]) := by decide
theorem test_decode_program :
    decode (.request ⟨0b110, 0x200, 0, 0, 0, 256, [], [1, 2]⟩) = .ok (.program 0x200 [1, 2] 256) := by decide
theorem test_decode_transact :
    decode (.request ⟨0b111, 0, 0, 3, 4, 0, [0x9F], []⟩) = .ok (.transact [0x9F] 3 4) := by decide
theorem test_decode_open : decodeTableWord 1 0b0 = some .openSession := by decide
theorem test_decode_close : decodeTableWord 1 0b1 = some .closeSession := by decide
theorem test_decode_set_register :
    decode (.packet [0x00, 0x00, 0x02, 0x00, 0x01, 0x00, 0x00, 0x00, 0xAA]) = .ok (.setRegister [0xAA]) := by decide
theorem test_decode_read_register :
    decode (.packet [0x01, 0x00, 0x02, 0x00, 0x00, 0x00, 0x00, 0x00]) = .ok .readRegister := by decide
theorem test_decode_read_data_pkt :
    decode (.packet [0x02, 0x00, 0x02, 0x00, 0x00, 0x00, 0x00, 0x00]) = .ok .readDataPkt := by decide
theorem test_decode_unknown_command :
    decode (.packet [0x03, 0x00, 0x02, 0x00, 0x00, 0x00, 0x00, 0x00]) = .error (.unknownCommand 0x00020003) := by decide
theorem test_decode_rdid : decode (.frame ⟨[0x9F], 3, 0⟩) = .ok .rdid := by decide
theorem test_decode_rduid : decode (.frame ⟨[0x4B], 16, 4⟩) = .ok .rduid := by decide
theorem test_decode_fast_read : decode (.frame ⟨[0x0B, 0x00, 0x01, 0x50], 1, 1⟩) = .ok (.fastRead 0x150 1) := by decide
theorem test_decode_wren : decode (.frame ⟨[0x06], 0, 0⟩) = .ok .wren := by decide
theorem test_decode_rdsr : decode (.frame ⟨[0x05], 1, 0⟩) = .ok .rdsr := by decide
theorem test_decode_wrdi : decode (.frame ⟨[0x04], 0, 0⟩) = .ok .wrdi := by decide
theorem test_decode_block_erase : decode (.frame ⟨[0xD8, 0x01, 0x00, 0x00], 0, 0⟩) = .ok (.blockErase64kb 0x10000) := by
  decide
theorem test_decode_page_program :
    decode (.frame ⟨[0x02, 0x00, 0x02, 0x00, 0xFF], 0, 0⟩) = .ok (.pageProgram 0x200 [0xFF]) := by decide
theorem test_decode_unknown_frame : decode (.frame ⟨[0xAB], 0, 0⟩) = .error .unknownFrame := by decide

/-! ### The codec and the arithmetic (V-PK, V-TE) -/

/-- V-PK3. -/
theorem test_encode_packet : encodePacket 0xDEADBEEF [0x01] = [0xEF, 0xBE, 0xAD, 0xDE, 0x01, 0x00, 0x00, 0x00, 0x01] := by decide
/-- V-PK6. -/
theorem test_decode_short : decodePacket [1, 0, 2, 0, 0, 0, 0] = .error (.malformedPacket 7) := by decide
/-- V-PK8: trailing bytes are not ignored. -/
theorem test_decode_trailing : decodePacket [2, 0, 2, 0, 2, 0, 0, 0, 0xAA, 0xBB, 0xCC] = .error (.lengthMismatch 2 3) := by decide
/-- V-TE4: a count is cut to its field. -/
theorem test_count_is_cut : (transactBlock cfg (describe 513 0 0)).x2 = 0x01000000 := by decide
/-- V-TE16. -/
theorem test_write_dummy_read : (transactBlock cfg (describe 1 16 4)).x2 = 0x0500300F := by decide
/-- V-TE13: dummy equal to the padding needs no dummy phase. -/
theorem test_dummy_is_padding : (transactBlock cfg (describe 1 3 3)).x2 = 0x03003002 := by decide

/-- R118: the source's worked vectors. -/
theorem test_worked_vectors :
    ((describe 1 0 0).mode, (describe 1 0 0).wrCnt) = (.writeOnly, some 0) ∧
    ((describe 0 3 0).mode, (describe 0 3 0).rdCnt) = (.readOnly, some 2) ∧
    ((describe 4 3 0).mode, (describe 4 3 0).padding) = (.writeThenRead, 0) ∧
    ((describe 1 16 4).mode, (describe 1 16 4).dmCnt, (describe 1 16 4).wrCnt) = (.writeDummyRead, some 0, some 3) := by decide
/-- R131: the codes. -/
theorem test_error_codes :
    [Err.malformedPacket 0, .lengthMismatch 0 0, .shortWrite 0 0, .statusMismatch 0, .lengthAccounting 0 0,
      .registerBlockLength 0, .transportError .io, .notFound 0 0, .invalidArgument (.addr 0)].map errCode =
      [1, 2, 3, 4, 5, 6, 7, 8, 9] := by decide

/-! ### One step of each instruction -/

/-- V-FC1: RESET's packet carries the block with SPIRST, RXFIFORST, TXFIFORST and NO_DATA. -/
theorem test_reset_block : serialize (behind .reset idle).rb =
    [7, 0, 0, 0, 0x80, 7, 2, 0, 0, 0, 0, 7, 0, 0, 0, 0, 0, 0, 0, 0, 0, 0, 0, 0, 0, 0x40, 0x40, 0, 0, 0, 0, 0, 0, 0, 0, 0,
      0, 0, 0, 0] := by decide
theorem test_read_id_frame : (behind .readId idle).seq = .frame ⟨[0x9F], 3, 0⟩ := by decide
theorem test_read_uid_frame : (behind .readUid idle).seq = .frame ⟨[0x4B], 16, 4⟩ := by decide
/-- V-FC7: a range that ends at `2^24` is allowed. -/
theorem test_read_data_end : (behind (.readData 0xFFFFF0 0x10) idle).seq = .frame ⟨[0x0B, 0xFF, 0xFF, 0xF0], 16, 1⟩ := by decide
/-- V-FC8. -/
theorem test_read_data_beyond : (behind (.readData 0xFFFFF0 0x11) idle).seq =
    .emit (.err (.invalidArgument (.range 0xFFFFF0 0x11))) := by decide
theorem test_erase_scope : (behind (.erase64kb 0x010000) idle).seq = .frame ⟨[0x06], 0, 0⟩ := by decide
/-- V-FC11. -/
theorem test_erase_beyond : (behind (.erase64kb 0x1000000) idle).seq = .emit (.err (.invalidArgument (.addr 0x1000000))) := by
  decide
theorem test_program_page_latch : (after (.programPage 0x200 [0, 1]) idle).req =
    some ⟨5, 0x200, 0, 0, 0, 0, [], [0, 1]⟩ := by decide
/-- A blank first chunk is skipped. -/
theorem test_program_skips : (behind (.program 0 [0xFF, 0xFF, 0xFF, 0x00] 2) idle).k = 1 := by decide
theorem test_program_page_size : (behind (.program 0 [0] 0) idle).seq = .emit (.err (.invalidArgument (.pageSize 0))) := by decide
/-- V-TE28: nothing to write or read. -/
theorem test_transact_empty : (after (.transact [] 0 9) idle).seq = .emit (.ok []) := by decide
theorem test_transact_frame : (behind (.transact [0xAB] 2 1) idle).seq = .frame ⟨[0xAB], 2, 1⟩ := by decide
/-- Open with nothing found (R150). -/
theorem test_open_not_found :
    (after .openSession { idle with env := { Env.initial with oracle := { Oracle.initial with opens := [.notFound] } } }).result =
      some (.err (.notFound 1 2)) := by decide
theorem test_close_session : (after .closeSession polling).session = .closed := by decide
theorem test_set_register_write : written (after (.setRegister [0xAA]) (scripted [.count 9] [])) =
    [0x00, 0x00, 0x02, 0x00, 0x01, 0x00, 0x00, 0x00, 0xAA] := by decide
/-- V-PK11, as a wire command of its own: a short write. -/
theorem test_set_register_short : (behind (.setRegister []) (scripted [.count 7] [])).seq = .emit (.err (.shortWrite 8 7)) := by
  decide
theorem test_read_register_reads : (behind .readRegister (scripted [.count 8] [])).seq = .recvBlock := by decide
theorem test_read_data_pkt_reads : (behind .readDataPkt (scripted [.count 8] [])).seq = .recvData := by decide
/-- V-PK13: a write that times out. -/
theorem test_read_data_pkt_timeout : (behind .readDataPkt (scripted [.failed .timeout] [])).seq =
    .emit (.err (.transportError .timeout)) := by decide
/-- V-PK15: READ_ID's packet. -/
theorem test_rdid_packet : written (after .rdid (scripted [.count 52] [])) =
    [0, 0, 2, 0, 0x2C, 0, 0, 0, 0, 0, 0, 0, 0x80, 7, 2, 0, 2, 0, 0, 3, 0, 0, 0, 0, 0, 0, 0, 0, 0, 0, 0, 0, 0, 0x40, 0x40, 0,
      0, 0, 0, 0, 0, 0, 0, 0, 0, 0, 0, 0, 0x9F, 0xFF, 0xFF, 0xFF] := by decide
theorem test_rdid_then_reads : (behind .rdid (scripted [.count 52] [])).seq = .packet [2, 0, 2, 0, 0, 0, 0, 0] := by decide
theorem test_rduid_control : (after .rduid (scripted [.count 52] [])).rb.x2 = 0x0500300F := by decide
/-- V-TE23. -/
theorem test_fast_read_control : (after (.fastRead 0x100 80) (scripted [.count 52] [])).rb.x2 = 0x0500304F := by decide
/-- V-TE29: no READ_DATA for a command that reads nothing. -/
theorem test_wren_then_status : (behind .wren (scripted [.count 52] [])).seq = .packet [1, 0, 2, 0, 0, 0, 0, 0] := by decide
theorem test_wren_latch : (after .wren refIdle).env.ref.flash.wel = true := by decide
/-- V-TE8. -/
theorem test_rdsr_control : (after .rdsr (scripted [.count 52] [])).rb.x2 = 0x03000000 := by decide
theorem test_rdsr_buffer : (after .rdsr refEnabled).env.ref.rdbuf = [0x02] := by decide
theorem test_wrdi_latch : (after .wrdi refEnabled).env.ref.flash.wel = false := by decide
theorem test_block_erase_busy : (after (.blockErase64kb 0x10000) refEnabled).env.ref.flash.busy = 2 := by decide
theorem test_page_program_byte : flashByte (after (.pageProgram 0x2FF [0xF0, 0x0F]) refEnabled) 0x200 = 0x0F := by decide
/-- V-TE32's packet, its TransferControl word and padded write string. -/
theorem test_page_program_packet :
    (written (after (.pageProgram 0x10 [0xAA, 0x55]) (scripted [.count 56] []))).drop 48 =
      [0x02, 0x00, 0x00, 0x10, 0xAA, 0x55, 0xFF, 0xFF] := by decide

/-! ### Positions between the instructions -/

/-- V-TE37: the whole Status word is compared. -/
theorem test_status_mismatch : (proceed { idle with seq := .gotBlock (blockAnswer { back with x6 := 0x00404001 }) }).seq =
    .emit (.err (.statusMismatch 0x00404001)) := by decide
/-- V-TE33: a READ_DATA answer of another length. -/
theorem test_length_accounting : (proceed { idle with
    seq := .gotData (.bytes [2, 0, 2, 0, 2, 0, 0, 0, 0xEF, 0x40]), rb := transactBlock cfg (describe 1 3 0) }).seq = .emit (.err (.lengthAccounting 3 2)) := by decide
/-- R135: an emitted error leaves nothing pending. -/
theorem test_emit : (emitStep (.err (.malformedPacket 4)) polling).result = some (.err (.malformedPacket 4)) := by decide

/-! ### Witnesses: each statement's hypotheses are met, at the boundaries of its clauses -/

theorem witness_DecodeOfEncodeIsIdentity :
    (Instr.fastRead 0xFFFFFF 80).wellFormed = true ∧ (Instr.setRegister (List.replicate 40 0)).wellFormed = true ∧
      (Instr.pageProgram 0xFFFFFF []).wellFormed = true := by decide

theorem witness_DecodedPacketsAndFramesReencode :
    decodeWire [2, 0, 2, 0, 0, 0, 0, 0] = .ok .readDataPkt ∧ decodeFrame ⟨[0x05], 1, 0⟩ = .ok .rdsr := by decide

/-- Requests and session actions at IDLE, and a Close while busy. -/
theorem witness_StepRunsDecodedInstruction_port :
    (let s : State := { idle with port := [.request (bareRequest 1)] };
      s.seq = .idle ∧ s.port = .request (bareRequest 1) :: [] ∧ decode (.request (bareRequest 1)) = .ok .readId) ∧
    (let s : State := { idle with port := [.session 0] };
      (s.seq = .idle ∨ (0 : BitVec 1) = 1) ∧ s.port = .session 0 :: [] ∧ decode (.session 0) = .ok .openSession) ∧
    (let s : State := { polling with port := [.session 1] };
      (s.seq = .idle ∨ (1 : BitVec 1) = 1) ∧ s.port = .session 1 :: [] ∧ decode (.session 1) = .ok .closeSession) :=
  ⟨⟨rfl, rfl, rfl⟩, ⟨.inl rfl, rfl, rfl⟩, ⟨.inr rfl, rfl, rfl⟩⟩

/-- A packet line and a frame line, and the positions behind a write and behind an acceptance that lead to one, with each of
the four ports. -/
theorem witness_StepRunsDecodedInstruction_line :
    (∀ port ∈ [[], [PortInput.nothing], [.request (bareRequest 1)], [.session 0]],
      (let s : State := { idle with seq := .packet readDataPacket, port := port };
        (proceed s).seq = .packet readDataPacket ∧ s.port = port ∧ decode (.packet readDataPacket) = .ok .readDataPkt) ∧
      (let s : State := { idle with seq := .wrote 52 (.count 52) .askData, port := port };
        (proceed s).seq = .packet readDataPacket ∧ s.port = port) ∧
      (let s : State := { accepted (bareRequest 1) idle with port := port };
        (proceed s).seq = .frame rdidFrame ∧ s.port = port ∧ decode (.frame rdidFrame) = .ok .rdid) ∧
      (let s : State := { polling with port := port };
        (proceed s).seq = .frame rdsrFrame ∧ s.port = port ∧ decode (.frame rdsrFrame) = .ok .rdsr)) :=
  fun _ _ => ⟨⟨rfl, rfl, by decide⟩, ⟨rfl, rfl⟩, ⟨rfl, rfl, by decide⟩, ⟨rfl, rfl, by decide⟩⟩

theorem witness_AddressesAreBigEndian : (0xFFFFFF : Nat) < 2 ^ 24 := by decide

theorem witness_PacketCodecLaws :
    ([1] : List Byte).length < 2 ^ 32 ∧ (List.replicate 7 (0 : Byte)).length < 8 ∧
    (let raw : List Byte := [2, 0, 2, 0, 1, 0, 0, 0];
      8 ≤ raw.length ∧ (fromLe32 (slice raw 4 8)).toNat ≠ raw.length - 8) ∧
    (let raw : List Byte := [2, 0, 2, 0, 1, 0, 0, 0, 7];
      8 ≤ raw.length ∧ (fromLe32 (slice raw 4 8)).toNat = raw.length - 8) ∧
    encodePacket 5 [1] = encodePacket 5 [1] := by decide

/-- A field at the bottom of its register, its neighbour, and a field at bit 31. -/
theorem witness_RegisterBlockLaws :
    (List.replicate 40 (0 : Byte)).length = 40 ∧
    regSlot cfg (fieldReg .rdTranCnt) = some 2 ∧ fieldBits cfg .rdTranCnt = some ⟨.rdTranCnt, 0, 9⟩ ∧ 0 + 9 ≤ 32 ∧
    (9 < 32 ∧ (9 < 0 ∨ 0 + 9 ≤ 9)) ∧
    (fieldReg .dummyCnt = fieldReg .rdTranCnt ∧ fieldBits cfg .dummyCnt = some ⟨.dummyCnt, 9, 2⟩ ∧ 9 + 2 ≤ 32 ∧
      (9 + 2 ≤ 0 ∨ 0 + 9 ≤ 9)) ∧ (3 : Fin 10) ≠ 2 ∧
    fieldBits cfg .slvDataOnly = some ⟨.slvDataOnly, 31, 1⟩ ∧ 31 + 1 ≤ 32 := by decide

theorem witness_DefaultsFillEverySlot : regSlot cfg .status = some 6 := by decide

theorem witness_SerializeIsLittleEndianByWord : 0 < 4 ∧ 3 < 4 := by decide

theorem witness_DeserializeTakesFortyBytes :
    (List.replicate 39 (0 : Byte)).length ≠ 40 ∧ (List.replicate 40 (0 : Byte)).length = 40 := by decide

theorem witness_PaddingRule : 4 % 4 = 0 ∧ 5 % 4 ≠ 0 := by decide

/-- One transaction for each mode, the dummy count at the padding and one above it. -/
theorem witness_ModeAndCounters :
    (1 ≠ 0 ∨ 0 ≠ 0) ∧ (0 ≠ 0 ∨ 1 ≠ 0) ∧ (1 ≠ 0 ∧ 1 ≠ 0 ∧ 3 ≤ paddingOf 1) ∧ (1 ≠ 0 ∧ 1 ≠ 0 ∧ paddingOf 1 < 4) := by decide

theorem witness_DummyUnitsAddUp :
    (describe 1 3 2).wrCnt = some 2 ∧ (describe 1 16 4).wrCnt = some 3 ∧ (describe 1 16 4).mode = .writeDummyRead := by decide

/-- Every named field's hypotheses, then the bit above RdTranCnt and DummyCnt (bit 11 of word 2) and a bit of a word that holds
none of the four fields. -/
theorem witness_TransactionBlockContents :
    cfg.wellFormed = true ∧ fieldBits cfg .wrTranCnt = some ⟨.wrTranCnt, 12, 9⟩ ∧
    ((Field.wrTranCnt = .wrTranCnt ∧ some 4 = (describe 5 0 7).wrCnt) ∧ (describe 5 0 7).rdCnt = none) ∧
    fieldBits cfg .rdTranCnt = some ⟨.rdTranCnt, 0, 9⟩ ∧ fieldBits cfg .dummyCnt = some ⟨.dummyCnt, 9, 2⟩ ∧
    some 0 = (describe 1 16 4).dmCnt ∧
    (Field.cpha ≠ .transMode ∧ Field.cpha ≠ .wrTranCnt ∧ Field.cpha ≠ .rdTranCnt ∧ Field.cpha ≠ .dummyCnt) ∧
    (∀ ij ∈ ([(2, 11), (0, 0), (9, 31)] : List (Fin 10 × Nat)),
      ∀ f b, f = .transMode ∨ f = .wrTranCnt ∨ f = .rdTranCnt ∨ f = .dummyCnt → regSlot cfg (fieldReg f) = some ij.1 →
        fieldBits cfg f = some b → ij.2 < b.lo ∨ b.lo + b.width ≤ ij.2) := by
  refine ⟨by decide, by decide, by decide, by decide, by decide, by decide, by decide, ?_⟩
  intro ij hij f b hf hs hb
  simp only [List.mem_cons, List.not_mem_nil, or_false] at hij
  rcases hij with rfl | rfl | rfl <;> rcases hf with rfl | rfl | rfl | rfl <;>
    first
      | exact absurd hs (by decide)
      | (cases hb; decide)

/-- For RESET's block: a field it does not write, the bit above the three reset bits, and a bit of a word without any of the four. -/
theorem witness_TransactionBlockContents_reset :
    cfg.wellFormed = true ∧
    (Field.rxThres ≠ .spiRst ∧ Field.rxThres ≠ .rxFifoRst ∧ Field.rxThres ≠ .txFifoRst ∧ Field.rxThres ≠ .transMode) ∧
    (∀ ij ∈ ([(0, 3), (2, 28), (9, 31)] : List (Fin 10 × Nat)),
      ∀ f b, f = .spiRst ∨ f = .rxFifoRst ∨ f = .txFifoRst ∨ f = .transMode → regSlot cfg (fieldReg f) = some ij.1 →
        fieldBits cfg f = some b → ij.2 < b.lo ∨ b.lo + b.width ≤ ij.2) := by
  refine ⟨by decide, by decide, ?_⟩
  intro ij hij f b hf hs hb
  simp only [List.mem_cons, List.not_mem_nil, or_false] at hij
  rcases hij with rfl | rfl | rfl <;> rcases hf with rfl | rfl | rfl | rfl <;>
    first
      | exact absurd hs (by decide)
      | (cases hb; decide)

theorem witness_SendPacketChecksTheCount :
    (answerWrite readDataPacket (scripted [.failed .timeout] [])).1 = .failed .timeout ∧
    (answerWrite readDataPacket (scripted [.count 7] [])).1 = .count 7 ∧ 7 ≠ readDataPacket.length ∧
    (answerWrite readDataPacket (scripted [.count 9] [])).1 = .count 9 ∧ 9 ≠ readDataPacket.length ∧
    (answerWrite readDataPacket (scripted [.count 8] [])).1 = .count readDataPacket.length ∧
    State.reset.session = .closed := by decide

theorem witness_RecvPacketDecodesOneRead :
    State.reset.session = .closed ∧ ([7] : List Byte).length < 2 ^ 32 ∧
    (let s : State := { idle with seq := .gotData (.bytes [1, 2]) };
      s.seq = .gotData (.bytes [1, 2]) ∧ checkRead (.bytes [1, 2]) = .error (.malformedPacket 2)) ∧
    (let s : State := { idle with seq := .gotBlock (.failed .io) };
      s.seq = .gotBlock (.failed .io) ∧ checkRead (.failed .io) = .error (.transportError .io)) := by decide

theorem witness_ResetAndIdentifyAreAccepted : idle.seq = .idle := by decide

theorem witness_ReadDataIsAccepted :
    idle.seq = .idle ∧ idle.scope = .closed ∧
    (2 ^ 24 ≤ 0x1000000 ∨ 2 ^ 24 < 0x1000000 + 0) ∧ (2 ^ 24 ≤ 0xFFFFF0 ∨ 2 ^ 24 < 0xFFFFF0 + 0x11) ∧
    (0xFFFFFF < 2 ^ 24 ∧ 0xFFFFFF + 0 ≤ 2 ^ 24) ∧ (0xFFFFF0 < 2 ^ 24 ∧ 0xFFFFF0 + 0x10 ≤ 2 ^ 24 ∧ 0x10 ≠ 0) := by decide

theorem witness_EraseAndPageAreAccepted :
    idle.seq = .idle ∧ idle.scope = .closed ∧ 0xFFFFFF < 2 ^ 24 ∧ 2 ^ 24 ≤ 0x1000000 := by decide

theorem witness_ProgramIsAccepted :
    idle.seq = .idle ∧ idle.scope = .closed ∧ 0 = 0 ∧
    (1 ≠ 0 ∧ (2 ^ 24 ≤ 0xFFFFFF ∨ 2 ^ 24 < 0xFFFFFF + ([0, 0] : List Byte).length)) ∧
    (1 ≠ 0 ∧ 0xFFFFFF < 2 ^ 24 ∧ 0xFFFFFF + ([0] : List Byte).length ≤ 2 ^ 24) := by decide

theorem witness_EmptyTransactReturnsAtOnce : idle.seq = .idle := by decide

/-- The longest write string that still fits a packet, and one byte more. -/
theorem witness_TransactIsAccepted :
    idle.seq = .idle ∧ idle.scope = .closed ∧ (([] : List Byte) ≠ [] ∨ 1 ≠ 0) ∧
    (let w : List Byte := List.replicate 4294967252 0;
      (w ≠ [] ∨ 0 ≠ 1) ∧ 40 + (w.length + paddingOf w.length) < 2 ^ 32) ∧
    (let w : List Byte := List.replicate 4294967253 0;
      (w ≠ [] ∨ 0 ≠ 1) ∧ 2 ^ 32 ≤ 40 + (w.length + paddingOf w.length)) := by
  simp only [List.length_replicate]
  exact ⟨rfl, rfl, .inr (by decide), ⟨.inr (by decide), by decide⟩, ⟨.inr (by decide), by decide⟩⟩

theorem witness_RequestsAreHeldWhileBusy :
    let s : State := { polling with port := [.request (bareRequest 1)], env := (scripted [.count 52] []).env }
    s.seq ≠ .idle ∧ encode .readId = .request (bareRequest 1) ∧ s.port = .request (bareRequest 1) :: [] ∧
      ∃ t, step s = .next t :=
  ⟨by decide, by decide, rfl, _, rfl⟩

theorem witness_SessionActions :
    (let s : State := { idle with env := { Env.initial with oracle := { Oracle.initial with opens := [.opened] } } };
      s.seq = .idle ∧ (answerOpen s).1 = .opened) ∧
    (let s : State := { idle with env := { Env.initial with oracle := { Oracle.initial with opens := [.notFound] } } };
      s.seq = .idle ∧ (answerOpen s).1 = .notFound) ∧ polling.seq ≠ .idle := by decide

theorem witness_WireCommandsWriteTheirPackets :
    takesPacket (encodePacket 0x00020000 [0xAA]) (scripted [.count 9] []) ∧
    takesPacket (encodePacket 0x00020001 []) (scripted [.count 8] []) ∧
    takesPacket (encodePacket 0x00020002 []) (scripted [.count 8] []) :=
  ⟨by unfold takesPacket; decide, by unfold takesPacket; decide, by unfold takesPacket; decide⟩

/-- The hypotheses of the frames' statement, for one instruction and its frame. -/
def FrameWitness (i : Instr) (f : Frame) (n : Nat) : Prop :=
  encode i = .frame f ∧ frameTooLong f = false ∧ takesPacket (setPacket cfg f) (scripted [.count n] [])

theorem witness_FramesWriteTheirRegisterBlock :
    FrameWitness .rdid ⟨[0x9F], 3, 0⟩ 52 ∧ FrameWitness .rduid ⟨[0x4B], 16, 4⟩ 52 ∧
    FrameWitness (.fastRead 0xFFFFF0 16) ⟨[0x0B, 0xFF, 0xFF, 0xF0], 16, 1⟩ 52 ∧ FrameWitness .wren ⟨[0x06], 0, 0⟩ 52 ∧
    FrameWitness .rdsr ⟨[0x05], 1, 0⟩ 52 ∧ FrameWitness .wrdi ⟨[0x04], 0, 0⟩ 52 ∧
    FrameWitness (.blockErase64kb 0x10000) ⟨[0xD8, 0x01, 0x00, 0x00], 0, 0⟩ 52 ∧
    FrameWitness (.pageProgram 0x10 [0xAA, 0x55]) ⟨[0x02, 0x00, 0x00, 0x10, 0xAA, 0x55], 0, 0⟩ 56 := by
  unfold FrameWitness takesPacket
  decide

/-- The packet payload of a PAGE_PROGRAM with the longest data that still fits, and with one byte more. -/
theorem page_program_lengths (a : Nat) (p : List Byte) :
    let w : List Byte := 0x02 :: (be24 a ++ p)
    (p.length = 4294967248 → 40 + (w.length + paddingOf w.length) < 2 ^ 32) ∧
    (p.length = 4294967249 → 2 ^ 32 ≤ 40 + (w.length + paddingOf w.length)) ∧
    (p.length = 4294967248 → frameTooLong ⟨w, 0, 0⟩ = false) ∧ (p.length = 4294967249 → frameTooLong ⟨w, 0, 0⟩ = true) := by
  refine ⟨?_, ?_, ?_, ?_⟩ <;> intro h <;> simp [frameTooLong, payloadLimit, blockBytes, be24, paddingOf, alignBytes, h]

theorem witness_FramesWriteTheirRegisterBlock_too_long :
    (∀ p : List Byte, encode (.pageProgram 0x10 p) = .frame ⟨0x02 :: (be24 0x10 ++ p), 0, 0⟩) ∧
    frameTooLong ⟨0x02 :: (be24 0x10 ++ List.replicate 4294967248 0), 0, 0⟩ = false ∧
    frameTooLong ⟨0x02 :: (be24 0x10 ++ List.replicate 4294967249 0), 0, 0⟩ = true :=
  ⟨fun _ => rfl, (page_program_lengths _ _).2.2.1 List.length_replicate, (page_program_lengths _ _).2.2.2 List.length_replicate⟩

/-- A failed or short write outside a scope, in the body, in a poll and in WRDI. -/
theorem witness_FailedWritesRaiseAtOnce :
    (answerWrite (encodePacket 0x00020000 []) (scripted [.failed .io] [])).1 = .failed .io ∧
    (answerWrite readRegisterPacket (scripted [.failed .timeout] [])).1 = .failed .timeout ∧
    ((answerWrite readDataPacket (scripted [.count 7] [])).1 = .count 7 ∧ 7 ≠ readDataPacket.length) ∧
    (let s : State := { scripted [.count 51] [] with scope := .body };
      s.scope = .body ∧ encode (.blockErase64kb 0x10000) = .frame (blockEraseFrame 0x10000) ∧
        frameTooLong (blockEraseFrame 0x10000) = false ∧
        (answerWrite (setPacket s.cfg (blockEraseFrame 0x10000)) s).1 = .count 51 ∧
        51 ≠ (setPacket s.cfg (blockEraseFrame 0x10000)).length) ∧
    (let s : State := { scripted [.failed .io] [] with scope := .polling };
      s.scope = .polling ∧ encode .rdsr = .frame rdsrFrame ∧ (answerWrite (setPacket s.cfg rdsrFrame) s).1 = .failed .io) ∧
    (let s : State := { scripted [.failed .io] [] with scope := .closing };
      s.scope = .closing ∧ encode .wrdi = .frame wrdiFrame ∧ (answerWrite (setPacket s.cfg wrdiFrame) s).1 = .failed .io) := by
  decide

/-- An answer of three bytes where three are expected, of two, and a failed read. -/
theorem witness_ReadDataAnswerLength :
    let s : State := { idle with rb := transactBlock cfg (describe 1 3 0) }
    fieldGet s.cfg s.rb .rdTranCnt + 1 = 3 ∧
    (checkRead (dataAnswer [1, 2, 3]) = .ok (0x00020002, [1, 2, 3]) ∧ ([1, 2, 3] : List Byte).length = 3) ∧
    (checkRead (dataAnswer [1, 2]) = .ok (0x00020002, [1, 2]) ∧ ([1, 2] : List Byte).length ≠ 3) ∧
    checkRead (.failed .timeout) = .error (.transportError .timeout) ∧
    ∀ a, ({ s with seq := .gotData a } : State).seq = .gotData a :=
  ⟨by decide, by decide, by decide, by decide, fun _ => rfl⟩

theorem witness_StatusWordDecides :
    (checkRead (dataAnswer [1]) = .ok (0x00020002, [1]) ∧ ([1] : List Byte).length ≠ 40) ∧
    (checkRead (blockAnswer back) = .ok (0x00020001, serialize back) ∧ statusWord cfg back = cfg.sentinel) ∧
    (checkRead (blockAnswer zeroBlock) = .ok (0x00020001, serialize zeroBlock) ∧
      statusWord cfg zeroBlock ≠ cfg.sentinel) ∧
    checkRead (.failed .io) = .error (.transportError .io) ∧
    ∀ a, ({ idle with seq := .gotBlock a } : State).seq = .gotBlock a :=
  ⟨by decide, by decide, by decide, by decide, fun _ => rfl⟩

/-- A short write outside a scope, and an error that ends the exit. -/
theorem witness_ErrorEndsTheRequest :
    idle.scope = .closed ∧
    (let s : State := { idle with seq := .wrote 8 (.count 7) .recvData };
      (proceed s).seq = .emit (.err (.shortWrite 8 7)) ∧ s.port = []) ∧
    (let s : State := { polling with seq := .gotBlock (.failed .io), pendingErr := some (.statusMismatch 0) };
      (proceed s).seq = .emit (.err (.statusMismatch 0)) ∧ s.port = []) :=
  ⟨rfl, ⟨by decide, rfl⟩, ⟨by decide, rfl⟩⟩

/-- PROGRAM: after chunk 0, the blank chunk 1 is skipped for chunk 2. READ_DATA of 81 bytes: after the first 80, after all of
them, and with one too many. -/
theorem witness_LoopsGoToTheirNextChunk :
    (let s : State := { polling with
        scope := .closing, req := some { bareRequest 6 with payload := [0, 0xFF, 0], pageSize := 1 } };
      s.scope = .closing ∧ s.pendingErr = none ∧ currentOp s = some (.program 0 [0, 0xFF, 0] 1) ∧ 1 ≠ 0 ∧
        0 + ([0, 0xFF, 0] : List Byte).length ≤ 2 ^ 24 ∧ (returnTransact [] s).k = 2) ∧
    (let s : State := { idle with acc := [1], req := some { bareRequest 3 with addr := 0x100, length := 81 } };
      s.scope = .closed ∧ currentOp s = some (.readData 0x100 81) ∧
        (s.acc ++ List.replicate 79 0).length < 81 ∧ (s.acc ++ List.replicate 80 0).length = 81 ∧
        81 < (s.acc ++ List.replicate 81 0).length ∧
        (returnTransact (List.replicate 79 0) s).seq = .frame ⟨[0x0B, 0x00, 0x01, 0x50], 1, 1⟩) := by decide

/-- Each line of the scope, with a PROGRAM in each place where it may stand. -/
theorem witness_WriteEnableScopeLines :
    (let s : State := { idle with req := some { bareRequest 4 with addr := 0x10000 } };
      s.scope = .closed ∧ currentOp s = some (.erase64kb 0x10000)) ∧
    (let s : State := { idle with req := some { bareRequest 5 with addr := 0x200, payload := [0] } };
      s.scope = .closed ∧ currentOp s = some (.programPage 0x200 [0])) ∧
    (let s : State := { idle with k := 1, req := some { bareRequest 6 with addr := 4, payload := [0, 1], pageSize := 1 } };
      s.scope = .closed ∧ currentOp s = some (.program 4 [0, 1] 1) ∧ programChunk [0, 1] 1 s.k = [1]) ∧
    ({ polling with scope := .body } : State).scope = .body ∧ polling.scope = .polling ∧
    ((1 : Byte).getLsbD 0 = true ∧ (0 : Byte).getLsbD 0 = false ∧ (2 : Byte).getLsbD 0 = false) ∧
    (let s : State := { polling with scope := .closing };
      s.scope = .closing ∧ currentOp s = some (.erase64kb 0x10000) ∧ s.pendingErr = none) ∧
    (let s : State := { polling with
        scope := .closing, pendingErr := some (.statusMismatch 0),
        req := some { bareRequest 6 with payload := [0, 1], pageSize := 1 } };
      s.scope = .closing ∧ currentOp s = some (.program 0 [0, 1] 1) ∧ s.pendingErr = some (.statusMismatch 0)) := by decide

/-- The body's two lengths: the longest that still fits a packet, and one byte more. -/
theorem witness_WriteEnableScopeLines_lengths :
    (∀ p : List Byte, currentOp { idle with req := some { bareRequest 5 with addr := 0x200, payload := p } } =
      some (.programPage 0x200 p)) ∧
    (let w : List Byte := 0x02 :: (be24 0x200 ++ List.replicate 4294967248 0); 40 + (w.length + paddingOf w.length) < 2 ^ 32) ∧
    (let w : List Byte := 0x02 :: (be24 0x200 ++ List.replicate 4294967249 0);
      2 ^ 32 ≤ 40 + (w.length + paddingOf w.length)) :=
  ⟨fun _ => rfl, (page_program_lengths _ _).1 List.length_replicate, (page_program_lengths _ _).2.1 List.length_replicate⟩

/-- A transaction that reads nothing, and one that reads three bytes, each as a TRANSACT request of its own. -/
theorem witness_TransactRunsToItsReturn :
    let set := wrenFrame
    let get := rdidFrame
    let s : State := { scripted [.count 52, .count 8] [blockAnswer back] with
      seq := .frame set, req := some { bareRequest 7 with wbytes := [0x06] } }
    let t : State := { scripted [.count 52, .count 8, .count 8] [dataAnswer [1, 2, 3], blockAnswer back] with
      seq := .frame get, req := some { bareRequest 7 with wbytes := [0x9F], rdLen := 3 } }
    (frameEmpty set = false ∧ frameTooLong set = false ∧ set.rdLen = 0 ∧ (setPacket cfg set).length = 52 ∧
      statusWord cfg back = cfg.sentinel ∧ Scripted s [.count 52, .count 8] [blockAnswer back] ∧
      s.scope = .closed ∧ currentOp s = some (.transact [0x06] 0 0)) ∧
    (frameEmpty get = false ∧ frameTooLong get = false ∧ get.rdLen ≠ 0 ∧ (setPacket cfg get).length = 52 ∧
      3 = fieldGet cfg (transactBlock cfg (describe 1 3 0)) .rdTranCnt + 1 ∧
      Scripted t [.count 52, .count 8, .count 8] [dataAnswer [1, 2, 3], blockAnswer back] ∧
      t.scope = .closed ∧ currentOp t = some (.transact [0x9F] 3 0)) :=
  ⟨⟨by decide, by decide, by decide, by decide, by decide, ⟨rfl, rfl, rfl, rfl, rfl, rfl⟩, rfl, by decide⟩,
    ⟨by decide, by decide, by decide, by decide, by decide, ⟨rfl, rfl, rfl, rfl, rfl, rfl⟩, rfl, by decide⟩⟩

/-- A scripted block meets the hypotheses on the state for any script. -/
theorem scripted_ready (w : List WriteAnswer) (r : List ReadAnswer) :
    Scripted (scripted w r) w r ∧ (scripted w r).cfg = defaultConfigWith 1000 1 2 ∧ (scripted w r).scope = .closed ∧
      (scripted w r).pendingErr = none ∧ back.x6 = 0x00404000#32 :=
  ⟨⟨rfl, rfl, rfl, rfl, rfl, rfl⟩, rfl, rfl, rfl, rfl⟩

/-- A whole, a failed and a short write. -/
theorem witness_ResetWritesOnePacket :
    (let s := scripted [.count 48] []; s.cfg = defaultConfigWith 1000 1 2 ∧ s.scope = .closed ∧ Scripted s [.count 48] []) ∧
    (let s := scripted [.failed .timeout] []; Scripted s [.failed .timeout] []) ∧
    (let s := scripted [.count 47] []; Scripted s [.count 47] [] ∧ 47 ≠ 48) :=
  ⟨⟨rfl, rfl, (scripted_ready _ _).1⟩, (scripted_ready _ _).1, (scripted_ready _ _).1, by decide⟩

/-- The three and the sixteen bytes of the reference flash. -/
theorem witness_IdentificationReturnsTheAnswer :
    ∀ d ∈ [jedecId, uniqueId], (d.length = 3 ∨ d.length = 16) ∧
      (let s := scripted [.count 52, .count 8, .count 8] [dataAnswer d, blockAnswer back];
        s.cfg = defaultConfigWith 1000 1 2 ∧ s.scope = .closed ∧ back.x6 = 0x00404000#32 ∧
          Scripted s (.count 52 :: .count 8 :: .count 8 :: []) (dataAnswer d :: blockAnswer back :: [])) :=
  fun d hd => ⟨by revert d; decide, rfl, rfl, rfl, (scripted_ready _ _).1⟩

/-- Two chunks, the second of one byte that ends at `2^24` (V-FC7). -/
theorem witness_ReadDataReturnsItsChunks :
    let d : List Byte := List.replicate 81 0
    let w := (List.range (chunkCount d)).flatMap (fun _ => shortWrites true) ++ []
    let r := (List.range (chunkCount d)).flatMap (fun j => [dataAnswer (readChunk d j), blockAnswer back]) ++ []
    let s := scripted w r
    s.cfg = defaultConfigWith 1000 1 2 ∧ s.scope = .closed ∧ back.x6 = 0x00404000#32 ∧ 0xFFFFAF < 2 ^ 24 ∧
      0xFFFFAF + d.length ≤ 2 ^ 24 ∧ Scripted s w r :=
  ⟨rfl, rfl, rfl, by decide, by decide, (scripted_ready _ _).1⟩

theorem witness_PollsAsLongAsBusy :
    let w := ([1, 3] : List Byte).flatMap (fun _ => shortWrites true) ++ []
    let r := ([1, 3] : List Byte).flatMap (pollReads back) ++ []
    let s : State := { polling with env := (scripted w r).env }
    s.cfg = defaultConfigWith 1000 1 2 ∧ (proceed s).seq = .frame ⟨[0x05], 1, 0⟩ ∧ (proceed s).scope = .polling ∧ back.x6 = 0x00404000#32 ∧
      (∀ b ∈ ([1, 3] : List Byte), b.getLsbD 0 = true) ∧ Scripted s w r :=
  ⟨rfl, rfl, rfl, rfl, by decide, ⟨rfl, rfl, rfl, rfl, rfl, rfl⟩⟩

/-- Two busy polls, then an idle one with WEL set; a body whose Status word is the sentinel, and one whose word is not. -/
theorem witness_EraseRunsItsBracket :
    ∀ body ∈ [back, zeroBlock],
      let bs : List Byte := [1, 3]
      let w := shortWrites false ++ shortWrites false ++ (bs ++ [2]).flatMap (fun _ => shortWrites true) ++ shortWrites false ++ []
      let r := [blockAnswer back, blockAnswer body] ++ (bs ++ [2]).flatMap (pollReads back) ++ [blockAnswer back] ++ []
      let s := scripted w r
      s.cfg = defaultConfigWith 1000 1 2 ∧ s.scope = .closed ∧ s.pendingErr = none ∧ 0xFFFFFF < 2 ^ 24 ∧
        back.x6 = 0x00404000#32 ∧ (∀ x ∈ bs, x.getLsbD 0 = true) ∧ (2 : Byte).getLsbD 0 = false ∧ Scripted s w r :=
  fun _ _ => ⟨rfl, rfl, rfl, by decide, rfl, by decide, by decide, (scripted_ready _ _).1⟩

theorem witness_EraseClearsItsBlock :
    ReferenceReady refIdle ∧ refIdle.scope = .closed ∧ refIdle.pendingErr = none ∧ 0xFFFFFF < 2 ^ 24 :=
  ⟨⟨⟨⟨1000, 1, 2, rfl⟩, rfl, rfl, rfl⟩, rfl, rfl⟩, rfl, rfl, by decide⟩

/-- A payload that ends at the end of its page. -/
theorem witness_ProgramPageClearsBits :
    ReferenceReady refIdle ∧ refIdle.scope = .closed ∧ refIdle.pendingErr = none ∧ 0x2FE < 2 ^ 24 ∧
      0x2FE % 256 + ([0, 1] : List Byte).length ≤ 256 :=
  ⟨⟨⟨⟨1000, 1, 2, rfl⟩, rfl, rfl, rfl⟩, rfl, rfl⟩, rfl, rfl, by decide, by decide⟩

theorem witness_BlockEraseInTheFlash :
    (ReferenceReady refEnabled ∧ refEnabled.env.ref.flash.wel = true ∧ 0xFFFFFF < 2 ^ 24) ∧
    (ReferenceBehind refIdle ∧ refIdle.env.ref.flash.wel = false) ∧
    (ReferenceBehind refBusy ∧ refBusy.env.ref.flash.busy ≠ 0) :=
  ⟨⟨⟨⟨⟨1000, 1, 2, rfl⟩, rfl, rfl, rfl⟩, rfl, rfl⟩, rfl, by decide⟩, ⟨⟨⟨1000, 1, 2, rfl⟩, rfl, rfl, rfl⟩, rfl⟩,
    ⟨⟨⟨1000, 1, 2, rfl⟩, rfl, rfl, rfl⟩, by decide⟩⟩

/-- A page-sized payload. -/
theorem witness_PageProgramInTheFlash :
    (ReferenceReady refEnabled ∧ refEnabled.env.ref.flash.wel = true ∧ 0xFFFFFF < 2 ^ 24 ∧
      (List.replicate 256 (0 : Byte)).length ≤ 256) ∧
    (ReferenceBehind refIdle ∧ refIdle.env.ref.flash.wel = false) ∧
    (ReferenceBehind refBusy ∧ refBusy.env.ref.flash.busy ≠ 0) :=
  ⟨⟨⟨⟨⟨1000, 1, 2, rfl⟩, rfl, rfl, rfl⟩, rfl, rfl⟩, rfl, by decide, by rw [List.length_replicate]⟩,
    ⟨⟨⟨1000, 1, 2, rfl⟩, rfl, rfl, rfl⟩, rfl⟩, ⟨⟨⟨1000, 1, 2, rfl⟩, rfl, rfl, rfl⟩, by decide⟩⟩

theorem witness_BlankProgramSendsNothing :
    idle.port = [] ∧ idle.scope = .closed ∧ 256 ≠ 0 ∧ 0xFFFFFF < 2 ^ 24 ∧ 0xFFFFFF + 1 ≤ 2 ^ 24 := by decide

theorem witness_ProgramChunksCoverThePayload :
    2 ≠ 0 ∧ ([1, 2, 3] : List Byte).length ≤ 2 * 2 ∧ (0 + 1) * 2 ≤ ([1, 2, 3] : List Byte).length := by decide

theorem witness_RangesBeyond24BitsAreRefused :
    idle.port = [] ∧ idle.scope = .closed ∧
    ¬(0xFFFFF0 < 2 ^ 24 ∧ 0xFFFFF0 + 0x11 ≤ 2 ^ 24) ∧ ¬(0x1000000 < 2 ^ 24 ∧ 0x1000000 + 0 ≤ 2 ^ 24) ∧
      (1 ≠ 0 ∧ ¬(0xFFFFFF < 2 ^ 24 ∧ 0xFFFFFF + ([0, 0] : List Byte).length ≤ 2 ^ 24)) ∧ ¬0x1000000 < 2 ^ 24 := by decide

/-- A block with no session, and operands of each request that exchanges packets. -/
theorem witness_NoSessionFailsTheFirstCall :
    State.reset.port = [] ∧ State.reset.scope = .closed ∧ State.reset.session = .closed ∧
    (0xFFFFFF < 2 ^ 24 ∧ 0xFFFFFF + 1 ≤ 2 ^ 24 ∧ 1 ≠ 0) ∧
    (1 ≠ 0 ∧ 0xFFFFFE + ([0xFF, 0] : List Byte).length ≤ 2 ^ 24 ∧ ∃ b ∈ ([0xFF, 0] : List Byte), b ≠ 0xFF#8) ∧
    ((([] : List Byte) ≠ [] ∨ 1 ≠ 0) ∧ 40 + (([] : List Byte).length + paddingOf ([] : List Byte).length) < 2 ^ 32) := by decide

theorem witness_CloseEndsThePoll :
    let s : State := { polling with port := [.session 1] }
    (proceed s).seq = .frame ⟨[0x05], 1, 0⟩ ∧ (proceed s).scope = .polling ∧ s.port = [.session 1] := ⟨rfl, rfl, rfl⟩

/-- A busy block inside a scope has the invariant. -/
theorem witness_EveryStepKeepsTheInvariant : SequencerInv polling where
  idle_clean := fun h => by cases h
  start_clean := fun h => by cases h
  emit_outside := fun _ h => by cases h
  pending_in_exit := fun h => absurd rfl h
  scope_op := fun _ => by decide
  frame_line := fun f h => by cases h; decide
  packet_line := fun _ h => by cases h
  set_line_outside := fun _ _ h => by cases h
  reset_outside := fun _ _ h => by cases h
  flash_wf := by decide

/-- A block that waits for READ_DATA's answer. -/
def awaiting : State :=
  { scripted [] [dataAnswer [1]] with
    seq := .recvData
    rb := transactBlock cfg (describe 1 1 0)
    req := some (bareRequest 1)
    events := [.wrote readDataPacket 1000 (.count 8)] }

theorem witness_EveryStepKeepsHalfDuplex : HalfDuplex awaiting ∧ ∃ t, step awaiting = .next t :=
  ⟨⟨by decide, fun _ => ⟨_, _, rfl⟩, fun h => by rcases h with h | ⟨_, _, h⟩ <;> cases h⟩, _, rfl⟩

theorem witness_ParametersNeverChange : ∃ t, step awaiting = .next t := ⟨_, rfl⟩

theorem witness_OneTransportCallEachStep : SequencerInv polling ∧ ∃ t, step polling = .next t :=
  ⟨witness_EveryStepKeepsTheInvariant, _, rfl⟩

theorem witness_SessionChangesOnlyBySessionActions :
    let s : State := { idle with port := [.session 1] }
    ∃ t, step s = .next t ∧ t.session ≠ s.session := ⟨_, rfl, by decide⟩

theorem witness_ResultIsWrittenAtTheEnd :
    let s : State := { idle with seq := .emit (.ok [1]) }
    ∃ t, step s = .next t ∧ t.result ≠ s.result := ⟨_, rfl, by decide⟩

theorem witness_RequestLatchIsStable : awaiting.seq ≠ .idle ∧ ∃ t, step awaiting = .next t := ⟨by decide, _, rfl⟩

/-- Two blocks that poll alike, with different leftovers of earlier work. -/
theorem witness_EarlierRequestsLeaveNoTrace :
    let t : State := { polling with
      rb := back, data := [1], acc := [2], k := 3, pollByte := 4, td := describe 1 3 0, events := [.closed], result := some (.ok []) }
    SequencerInv polling ∧ Agree polling t ∧ ∃ s', step polling = .next s' :=
  ⟨witness_EveryStepKeepsTheInvariant,
    { cfg := rfl, seq := rfl, req := rfl, scope := rfl, pendingErr := rfl, session := rfl, port := rfl, env := rfl
      rb := fun h => by cases h
      data := fun h => by cases h
      acc := fun _ h => absurd h (by decide)
      k := fun _ h => absurd h (by decide) },
    _, rfl⟩

theorem witness_FlashReadsAnswerAndStoreNothing :
    ((∃ t, exec .wren refIdle = .next t) ∧ (∀ p, Instr.wren ≠ .setRegister p) ∧ (∀ a, Instr.wren ≠ .blockErase64kb a) ∧
      (∀ a p, Instr.wren ≠ .pageProgram a p)) ∧
    (ReferenceBehind refIdle ∧ refIdle.env.ref.flash.busy = 0) ∧ (ReferenceBehind refBusy ∧ refBusy.env.ref.flash.busy ≠ 0) ∧
    (0xFFFFFF < 2 ^ 24 ∧ 1 ≤ 512 ∧ 512 ≤ 512) :=
  ⟨⟨⟨_, rfl⟩, by simp, by simp, by simp⟩, ⟨⟨⟨1000, 1, 2, rfl⟩, rfl, rfl, rfl⟩, rfl⟩,
    ⟨⟨⟨1000, 1, 2, rfl⟩, rfl, rfl, rfl⟩, by decide⟩, by decide⟩

/-- An erase of block 1 stores nothing in block 0. -/
theorem witness_StoresStayInsideTheFrame :
    let payload := serialize (transactBlock cfg (describe 4 0 0)) ++ padded (blockEraseFrame 0x10000).wbytes
    refEnabled.env.ref.flash.mem.wf = true ∧ encode (.blockErase64kb 0x10000) = .frame (blockEraseFrame 0x10000) ∧
      (∃ t, exec (.blockErase64kb 0x10000) refEnabled = .next t) ∧
      drivenFrame refEnabled.cfg payload = some [0xD8, 0x01, 0x00, 0x00] ∧
      ¬frameStores [0xD8, 0x01, 0x00, 0x00] 0xFFFF ∧ ¬frameStores [0xD8, 0x01, 0x00, 0x00] 0x20000 :=
  ⟨by decide, by decide, ⟨_, rfl⟩, by decide,
    by simp [frameStores, frameAddr, fromBe24, eraseBase, opBlockErase, opPageProgram, flashSize],
    by simp [frameStores, frameAddr, fromBe24, eraseBase, opBlockErase, opPageProgram, flashSize]⟩

end Sys2Proof.Tests
end

section
/-! The OPEN parameters (00_scope.md R7) are data that no step writes: the configuration, and which environment stands behind
the transport port. -/

namespace Sys2Proof.Proofs.Parameters

open Sys2Proof.Machine

/-- `t` has the OPEN parameters and the selected environment of `s`. -/
def SameParameters (s t : State) : Prop := t.cfg = s.cfg ∧ t.env.kind = s.env.kind

theorem SameParameters.of_eq {s t : State} (hcfg : t.cfg = s.cfg) (henv : t.env = s.env) : SameParameters s t :=
  ⟨hcfg, congrArg Env.kind henv⟩

theorem SameParameters.trans {s t u : State} (hst : SameParameters s t) (htu : SameParameters t u) :
    SameParameters s u := by
  obtain ⟨hcfg, hkind⟩ := hst
  obtain ⟨hcfg', hkind'⟩ := htu
  exact ⟨hcfg'.trans hcfg, hkind'.trans hkind⟩

variable (s : State)

/-! ### A transport call is answered by an environment of the same kind -/

@[simp] theorem answerWrite_kind (raw : List Byte) : (answerWrite raw s).2.kind = s.env.kind := by
  rcases answerWrite_cases s raw with ⟨_, e⟩ | ⟨_, _, e⟩ | ⟨_, _, _, e⟩ | ⟨_, _, _, e⟩ <;> rw [e]

@[simp] theorem answerRead_kind (m : Nat) : (answerRead m s).2.kind = s.env.kind := by
  rcases answerRead_cases s m with ⟨_, e⟩ | ⟨_, _, e⟩ | ⟨_, _, e⟩ <;> rw [e]

@[simp] theorem answerOpen_kind : (answerOpen s).2.kind = s.env.kind := by
  unfold answerOpen
  cases hkind : s.env.kind <;> exact hkind

theorem sendPacket_sameParameters (c : Word) (p : List Byte) (next : Line) :
    SameParameters s (sendPacket c p next s) := by
  simp [SameParameters]

theorem recvPacket_sameParameters (n : Nat) (behind : ReadAnswer → Seq) :
    SameParameters s (recvPacket n behind s) := by
  simp [SameParameters]

/-! ### The session actions -/

theorem openHandle_sameParameters : SameParameters s (openHandle s) := by
  unfold openHandle SameParameters
  cases (usbOpen s).1 <;> simp

theorem usbClose_sameParameters : SameParameters s (usbClose s) := .of_eq rfl rfl

theorem exec_session_sameParameters {t : State} (b : BitVec 1) (h : exec (decodeSession b) s = .next t) :
    SameParameters s t := by
  unfold decodeSession at h
  split_ifs at h
  · simp only [exec, execOpenSession, Host.Outcome.next.injEq] at h
    subst h
    split_ifs
    · exact (usbClose_sameParameters s).trans (openHandle_sameParameters _)
    · exact openHandle_sameParameters s
    · exact .of_eq rfl rfl
  · cases h
    exact usbClose_sameParameters s

/-! ### The event at a line -/

theorem runTransact_sameParameters (f : Frame) : SameParameters s (runTransact f s) := by
  rcases runTransact_cases s f with ⟨_, e⟩ | ⟨_, _, e⟩ | ⟨_, _, e⟩ <;> rw [e]
  · exact .of_eq (returnTransact_cfg s _) (returnTransact_env s _)
  · exact .of_eq (raiseErr_cfg s _) (raiseErr_env s _)
  · rw [sendTransact_eq]
    exact ⟨rfl, answerWrite_kind s _⟩

theorem runFetched_fetchLine_sameParameters {t : State} (h : runFetched (fetchLine s) = .next t) :
    SameParameters s t := by
  rcases runFetched_fetchLine_cases s h with ⟨f, _, rfl⟩ | ⟨_, c, p, next, _, rfl, _⟩ | ⟨_, rfl⟩ | ⟨_, rfl⟩ |
    ⟨r, _, rfl⟩ | ⟨_, rfl⟩
  · exact runTransact_sameParameters s f
  · exact sendPacket_sameParameters s c p next
  · exact recvPacket_sameParameters s _ _
  · exact recvPacket_sameParameters s _ _
  · exact .of_eq rfl rfl
  · exact .of_eq rfl rfl

/-- The step of the sequencer itself: the computation behind the last event, then the event at the line it leads to. -/
theorem runFetched_fetchSeq_sameParameters {t : State} (h : runFetched (fetchSeq s) = .next t) :
    SameParameters s t :=
  .trans (.of_eq (proceed_cfg s) (proceed_env s)) (runFetched_fetchLine_sameParameters (proceed s) h)

/-! ### The step -/

theorem step_sameParameters {t : State} (h : step s = .next t) : SameParameters s t := by
  rcases step_cases s with ⟨u, hu, e⟩ | ⟨b, rest, _, _, e⟩ | ⟨r, rest, _, hidle, e⟩ <;> rw [e] at h
  · have hsu : SameParameters s u := by
      rcases hu with rfl | ⟨_, _, rfl⟩ <;> exact .of_eq rfl rfl
    exact hsu.trans (runFetched_fetchSeq_sameParameters u h)
  · exact .trans (.of_eq rfl rfl) (exec_session_sameParameters { s with port := rest } b h)
  · obtain ⟨_, _, _, haccept⟩ := exec_request_idle { s with port := rest } r hidle
    rw [haccept] at h
    cases h
    exact .of_eq rfl rfl

end Sys2Proof.Proofs.Parameters

open Sys2Proof.Proofs.Parameters in
/-- Settles O51: the port, the computation and the event of a step each leave the parameters as they are. -/
theorem parametersNeverChange : Obligations.ParametersNeverChange := by
  unfold Obligations.ParametersNeverChange
  intro s t h
  exact step_sameParameters s h
end

section
/-! What one step can do (10_state.md R33), said once: which item it takes off the request port, and which event it ends with. -/

namespace Sys2Proof.Proofs.Steps

open Sys2Proof.Machine Sys2Proof.Safety

/-! ### The session actions -/

/-- The session signal is Open or Close (R78). -/
theorem signal_cases (b : BitVec 1) : b = 0#1 ∨ b = 1#1 := by
  revert b; decide

variable {s : State}

/-- An Open leaves SESSION and RESULT, and what `open` answered; nothing else. -/
theorem openHandle_eq (s : State) : ∃ session result,
    openHandle s = { (usbOpen s).2 with session := session, result := some result } := by
  unfold openHandle
  cases (usbOpen s).1 with
  | opened => exact ⟨_, _, rfl⟩
  | notFound => exact ⟨_, _, rfl⟩

/-- At IDLE an Open is taken, behind a close of the handle that is held (R150). -/
theorem exec_openSession_idle (h : s.seq = .idle) :
    ∃ v, (v = s ∨ v = usbClose s) ∧ exec .openSession s = .next (openHandle v) := by
  simp only [exec, execOpenSession, if_pos h]
  split_ifs
  · exact ⟨usbClose s, .inr rfl, rfl⟩
  · exact ⟨s, .inl rfl, rfl⟩

/-! ### The item taken off the request port -/

/-- The sequencer goes on from `u`: nothing is taken off the port but an empty step boundary. -/
def GoesOn (s u : State) : Prop := u = s ∨ ∃ rest, s.port = .nothing :: rest ∧ u = { s with port := rest }

/-- The block takes a Close and is in `t` behind it. -/
def TakesClose (s t : State) : Prop := ∃ rest, s.port = .session 1#1 :: rest ∧ t = usbClose { s with port := rest }

/-- The idle block takes an Open and is in `t` behind it. -/
def TakesOpen (s t : State) : Prop :=
  ∃ rest v, s.port = .session 0#1 :: rest ∧ s.seq = .idle ∧
    (v = { s with port := rest } ∨ v = usbClose { s with port := rest }) ∧ t = openHandle v

/-- The idle block takes a request and is in `t` behind it. -/
def TakesRequest (s t : State) : Prop :=
  ∃ r rest r' q, s.port = .request r :: rest ∧ s.seq = .idle ∧ (q = .start ∨ q = .emit (.ok [])) ∧
    t = { s with port := rest, req := some r', seq := q }

/-- An Open makes one open call, behind a close where it gives a handle back. -/
theorem takesOpen_events {t : State} (h : TakesOpen s t) :
    ∃ a, t.events = .opened s.cfg.vendorId s.cfg.productId a :: s.events ∨
      t.events = .opened s.cfg.vendorId s.cfg.productId a :: .closed :: s.events := by
  obtain ⟨rest, v, _, _, hv, rfl⟩ := h
  obtain ⟨_, _, e⟩ := openHandle_eq v
  rw [e]
  rcases hv with rfl | rfl
  · exact ⟨_, .inl rfl⟩
  · exact ⟨_, .inr rfl⟩

/-- An Open is taken off the port of an idle block, which stays idle. -/
theorem takesOpen_keeps {t : State} (h : TakesOpen s t) :
    ∃ rest, s.port = .session 0#1 :: rest ∧ t.port = rest ∧ t.seq = s.seq ∧ s.seq = .idle := by
  obtain ⟨rest, v, hport, hidle, hv, rfl⟩ := h
  obtain ⟨_, _, e⟩ := openHandle_eq v
  rw [e]
  rcases hv with rfl | rfl <;> exact ⟨rest, hport, rfl, rfl, hidle⟩

/-- Every step goes on with the sequencer, takes a Close, takes an Open or takes a request; the last three have a next
state in every state. -/
theorem step_goes_on_or_takes (s : State) :
    (∃ u, GoesOn s u ∧ step s = runFetched (fetchLine (proceed u))) ∨
    ∃ t, step s = .next t ∧ (TakesClose s t ∨ TakesOpen s t ∨ TakesRequest s t) := by
  rcases step_cases s with ⟨u, hu, e⟩ | ⟨b, rest, hport, hb, e⟩ | ⟨r, rest, hport, hidle, e⟩
  · exact .inl ⟨u, hu, e⟩
  · right
    rcases signal_cases b with rfl | rfl
    · have hidle : s.seq = .idle := hb.resolve_left (by decide)
      obtain ⟨v, hv, hexec⟩ := exec_openSession_idle (s := { s with port := rest }) hidle
      exact ⟨_, e.trans hexec, .inr (.inl ⟨rest, v, hport, hidle, hv, rfl⟩)⟩
    · exact ⟨_, e, .inl ⟨rest, hport, rfl⟩⟩
  · obtain ⟨r', q, hq, hexec⟩ := exec_request_idle { s with port := rest } r hidle
    exact .inr ⟨_, e.trans hexec, .inr (.inr ⟨r, rest, r', q, hport, hidle, hq, rfl⟩)⟩

/-- The same for a step that has a next state. -/
theorem step_next_cases {t : State} (h : step s = .next t) :
    (∃ u, GoesOn s u ∧ runFetched (fetchLine (proceed u)) = .next t) ∨
    TakesClose s t ∨ TakesOpen s t ∨ TakesRequest s t := by
  rcases step_goes_on_or_takes s with ⟨u, hu, e⟩ | ⟨t', e, htakes⟩
  · exact .inl ⟨u, hu, e.symm.trans h⟩
  · cases e.symm.trans h
    exact .inr htakes

/-- Where the sequencer goes on, the port is the only field that may differ before the computation, and so behind it. -/
theorem proceed_of_goesOn {u : State} (h : GoesOn s u) : ∃ port, proceed u = { proceed s with port := port } := by
  rcases h with rfl | ⟨rest, _, rfl⟩
  · exact ⟨(proceed u).port, rfl⟩
  · exact ⟨rest, proceed_withPort s rest⟩

theorem proceed_idle (h : s.seq = .idle) : proceed s = s := by
  unfold proceed; rw [h]

/-! ### The event at a line -/

/-- The step from a line `s` to `t` ends with one write, one read or the emission; a call leaves SEQ right behind it. -/
def EndsWithEvent (s t : State) : Prop :=
  (∃ raw a next, t.events = .wrote raw s.cfg.timeoutMs a :: s.events ∧ t.seq = .wrote raw.length a next) ∨
  (∃ m a, t.events = .readUpTo m s.cfg.timeoutMs a :: s.events ∧ (t.seq = .gotData a ∨ t.seq = .gotBlock a)) ∨
  (∃ r, s.seq = .emit r ∧ t = emitStep r s)

theorem sendPacket_endsWithEvent (s : State) (c : Word) (p : List Byte) (next : Line) :
    EndsWithEvent s (sendPacket c p next s) :=
  .inl ⟨_, _, next, rfl, rfl⟩

theorem sendTransact_endsWithEvent (s : State) (f : Frame) : EndsWithEvent s (sendTransact f s) :=
  .inl ⟨_, _, _, rfl, rfl⟩

theorem recvDataStep_endsWithEvent (s : State) : EndsWithEvent s (recvDataStep s) :=
  .inr (.inl ⟨_, _, rfl, .inl rfl⟩)

theorem recvBlockStep_endsWithEvent (s : State) : EndsWithEvent s (recvBlockStep s) :=
  .inr (.inl ⟨_, _, rfl, .inr rfl⟩)

theorem emitStep_endsWithEvent {r : Result} (h : s.seq = .emit r) : EndsWithEvent s (emitStep r s) :=
  .inr (.inr ⟨r, h, rfl⟩)

/-- At a line that holds an encoded instruction, that instruction is executed. -/
theorem runFetched_instr_line {e : Encoded} {i : Instr}
    (he : (∃ raw, s.seq = .packet raw ∧ e = .packet raw) ∨ ∃ f, s.seq = .frame f ∧ e = .frame f) (hd : decode e = .ok i) :
    runFetched (fetchLine s) = exec i s := by
  rcases he with ⟨raw, hq, rfl⟩ | ⟨f, hq, rfl⟩
  · simp only [fetchLine, hq, runFetched, hd]
  · rw [runFetched_frame s hq, exec_of_encode_frame s (encode_of_decodeFrame hd)]

/-- A line's event is one of the three, or no call is made: at a frame line that returns or raises at once, and where the
block waits. -/
theorem line_event_or_no_call {t : State} (h : runFetched (fetchLine s) = .next t) :
    EndsWithEvent s t ∨ t.events = s.events := by
  rcases runFetched_fetchLine_cases s h with ⟨f, _, rfl⟩ | ⟨_, c, p, next, _, rfl, _⟩ | ⟨_, rfl⟩ | ⟨_, rfl⟩ |
    ⟨r, hr, rfl⟩ | ⟨_, rfl⟩
  · rcases runTransact_cases s f with ⟨_, e⟩ | ⟨_, _, e⟩ | ⟨_, _, e⟩ <;> rw [e]
    · exact .inr (returnTransact_events s _)
    · exact .inr (raiseErr_events s _)
    · exact .inl (sendTransact_endsWithEvent s f)
  · exact .inl (sendPacket_endsWithEvent s c p next)
  · exact .inl (recvDataStep_endsWithEvent s)
  · exact .inl (recvBlockStep_endsWithEvent s)
  · exact .inl (emitStep_endsWithEvent hr)
  · exact .inr rfl

/-- A transaction line changes neither SESSION nor RESULT nor REQ. -/
theorem runTransact_keeps (s : State) (f : Frame) :
    (runTransact f s).session = s.session ∧ (runTransact f s).result = s.result ∧ (runTransact f s).req = s.req := by
  rcases runTransact_cases s f with ⟨_, e⟩ | ⟨_, _, e⟩ | ⟨_, _, e⟩ <;> rw [e]
  · exact ⟨returnTransact_session s _, returnTransact_result s _, returnTransact_req s _⟩
  · exact ⟨raiseErr_session s _, raiseErr_result s _, raiseErr_req s _⟩
  · exact ⟨rfl, rfl, rfl⟩

/-- No line changes SESSION, and only the emission changes RESULT and REQ. -/
theorem line_keeps {t : State} (h : runFetched (fetchLine s) = .next t) :
    t.session = s.session ∧
      ((t.result = s.result ∧ t.req = s.req) ∨ ∃ r, s.seq = .emit r ∧ t = emitStep r s) := by
  rcases runFetched_fetchLine_cases s h with ⟨f, _, rfl⟩ | ⟨_, c, p, next, _, rfl, _⟩ | ⟨_, rfl⟩ | ⟨_, rfl⟩ |
    ⟨r, hr, rfl⟩ | ⟨_, rfl⟩
  · obtain ⟨hsession, hkept⟩ := runTransact_keeps s f
    exact ⟨hsession, .inl hkept⟩
  · exact ⟨rfl, .inl ⟨rfl, rfl⟩⟩
  · exact ⟨rfl, .inl ⟨rfl, rfl⟩⟩
  · exact ⟨rfl, .inl ⟨rfl, rfl⟩⟩
  · exact ⟨rfl, .inr ⟨r, hr, rfl⟩⟩
  · exact ⟨rfl, .inl ⟨rfl, rfl⟩⟩

/-- The computation makes no call. -/
theorem goesOn_events {u : State} (hu : GoesOn s u) : (proceed u).events = s.events := by
  obtain ⟨port, e⟩ := proceed_of_goesOn hu
  rw [e]
  exact proceed_events s

/-- The event of the sequencer's own step, as it shows from where the step begins. -/
theorem goesOn_event {t u : State} (hu : GoesOn s u) (h : EndsWithEvent (proceed u) t) :
    (∃ raw a next, t.events = .wrote raw s.cfg.timeoutMs a :: s.events ∧ t.seq = .wrote raw.length a next) ∨
    (∃ m a, t.events = .readUpTo m s.cfg.timeoutMs a :: s.events ∧ (t.seq = .gotData a ∨ t.seq = .gotBlock a)) ∨
    (∃ r, t.events = s.events ∧ t.seq = .idle ∧ t.result = some r) := by
  have hevents := goesOn_events hu
  have hcfg : (proceed u).cfg = s.cfg := by
    rw [proceed_cfg]
    rcases hu with rfl | ⟨_, _, rfl⟩ <;> rfl
  unfold EndsWithEvent at h
  rw [hevents, hcfg] at h
  rcases h with hwrite | hread | ⟨r, _, rfl⟩
  · exact .inl hwrite
  · exact .inr (.inl hread)
  · exact .inr (.inr ⟨r, hevents, rfl, rfl⟩)

/-- Behind the computation, as it shows from where the step begins: the sequencer's own step changes neither
SESSION nor, unless it emits, RESULT or REQ. -/
theorem goesOn_keeps {t u : State} (hu : GoesOn s u) (h : runFetched (fetchLine (proceed u)) = .next t) :
    t.session = s.session ∧
      ((t.result = s.result ∧ t.req = s.req) ∨
        ∃ r, (proceed s).seq = .emit r ∧ t.seq = .idle ∧ t.result = some r) := by
  obtain ⟨port, e⟩ := proceed_of_goesOn hu
  obtain ⟨hsession, hkept⟩ := line_keeps h
  rw [e] at hsession hkept
  refine ⟨hsession.trans (proceed_session s), ?_⟩
  rcases hkept with ⟨hresult, hreq⟩ | ⟨r, hr, rfl⟩
  · exact .inl ⟨hresult.trans (proceed_result s), hreq.trans (proceed_req s)⟩
  · exact .inr ⟨r, hr, rfl, rfl⟩

end Sys2Proof.Proofs.Steps

open Sys2Proof Sys2Proof.Machine Sys2Proof.Proofs.Steps in
/-- Settles O53: the sequencer's own step and a request keep SESSION, so a session action was taken. -/
theorem sessionChangesOnlyBySessionActions : Obligations.SessionChangesOnlyBySessionActions := by
  unfold Obligations.SessionChangesOnlyBySessionActions
  intro s t h hne
  rcases step_next_cases h with ⟨u, hu, hrun⟩ | ⟨rest, hport, rfl⟩ | ht | ⟨_, _, _, _, _, _, _, rfl⟩
  · obtain ⟨hsession, _⟩ := goesOn_keeps hu hrun
    exact absurd hsession hne
  · exact ⟨1#1, rest, hport, rfl, fun _ => rfl, by simp⟩
  · obtain ⟨rest, hport, hrest, _, hidle⟩ := takesOpen_keeps ht
    exact ⟨0#1, rest, hport, hrest, by simp, fun _ => hidle⟩
  · exact absurd rfl hne

open Sys2Proof Sys2Proof.Machine Sys2Proof.Proofs.Steps in
/-- Settles O54: of the four kinds of step, a Close and a request keep RESULT, and the sequencer's own step changes it by
an emission alone. -/
theorem resultIsWrittenAtTheEnd : Obligations.ResultIsWrittenAtTheEnd := by
  unfold Obligations.ResultIsWrittenAtTheEnd
  intro s t h hne
  rcases step_next_cases h with ⟨u, hu, hrun⟩ | ⟨rest, _, rfl⟩ | ⟨rest, _, hport, hidle, _, _⟩ |
    ⟨_, _, _, _, _, _, _, rfl⟩
  · obtain ⟨_, ⟨hresult, _⟩ | ⟨r, hr, hseq, hresult⟩⟩ := goesOn_keeps hu hrun
    · exact absurd hresult hne
    · exact .inl ⟨r, hr, hresult, hseq⟩
  · exact absurd rfl hne
  · exact .inr ⟨hidle, rest, hport⟩
  · exact absurd rfl hne

open Sys2Proof Sys2Proof.Machine Sys2Proof.Proofs.Steps in
/-- Settles O55: a busy block takes nothing off the port but a Close, which keeps REQ. -/
theorem requestLatchIsStable : Obligations.RequestLatchIsStable := by
  unfold Obligations.RequestLatchIsStable
  intro s t h hbusy
  rcases step_next_cases h with ⟨u, hu, hrun⟩ | ⟨_, _, rfl⟩ | ⟨_, _, _, hidle, _⟩ | ⟨_, _, _, _, _, hidle, _⟩
  · obtain ⟨_, ⟨_, hreq⟩ | hemit⟩ := goesOn_keeps hu hrun
    · exact .inl hreq
    · exact .inr hemit
  · exact .inl rfl
  · exact absurd hidle hbusy
  · exact absurd hidle hbusy

open Sys2Proof Sys2Proof.Machine Sys2Proof.Proofs.Steps in
/-- Settles O5: the port decides what is taken; where nothing is, the line behind the computation is fetched, and the port
does not change that computation. -/
theorem stepRunsDecodedInstruction : Obligations.StepRunsDecodedInstruction := by
  unfold Obligations.StepRunsDecodedInstruction
  intro s i
  refine ⟨fun r rest hidle hport hd => ?_, fun b rest hb hport hd => ?_, fun e he hd => ?_⟩
  · exact step_of_fetch_instr s (by rw [fetch, hport]; exact if_pos hidle) hd
  · exact step_of_fetch_instr s (by rw [fetch, hport]; exact if_pos hb.symm) hd
  · have hbusy : s.seq ≠ .idle := by
      intro hidle
      rw [proceed_idle hidle, hidle] at he
      simp at he
    have hline : ∀ port, runFetched (fetchLine { proceed s with port := port }) = exec i { proceed s with port := port } :=
      fun port => runFetched_instr_line (s := { proceed s with port := port }) he hd
    refine ⟨fun hport => ?_, fun rest hport => ?_, fun r rest hport => ?_, fun rest hport => ?_⟩
    · rw [step, fetch, hport]
      exact hline (proceed s).port
    · rw [step, fetch, hport]
      exact (congrArg (fun u => runFetched (fetchLine u)) (proceed_withPort s rest)).trans (hline rest)
    · rw [step, fetch, hport]
      exact (congrArg runFetched (if_neg hbusy)).trans (hline (proceed s).port)
    · rw [step, fetch, hport]
      exact (congrArg runFetched (if_neg (by simp [hbusy]))).trans (hline (proceed s).port)
end

section
/-! The sequencer's invariant (10_state.md R38, R43; 43_flash_controller.md R124): the pure computation keeps it, each event
at a line keeps it, and so does every step. -/

namespace Sys2Proof.Proofs.Sequencer

open Sys2Proof.Machine Sys2Proof.Safety Sys2Proof.Proofs.Steps

/-! ### The invariant in two parts: what does not depend on SEQ, and what SEQ asks for -/

/-- The part of the sequencer's invariant that does not speak of SEQ. -/
structure ScopeInv (s : State) : Prop where
  pending_in_exit : s.pendingErr ≠ none → s.scope = .polling ∨ s.scope = .closing
  scope_op : s.scope ≠ .closed → mutating (currentOp s) = true
  flash_wf : s.env.ref.flash.mem.wf = true

/-- What the sequencer's invariant asks of a line with an event of its own, given SCOPE; no other position is one. -/
def LineOk (scope : Scope) : Seq → Prop
  | .frame f => frameEmpty f = false ∧ frameTooLong f = false
  | .packet raw => ∃ i, decodeWire raw = .ok i ∧ ∀ p, i = .setRegister p → scope = .closed
  | .recvData | .recvBlock => True
  | .emit _ => scope = .closed
  | _ => False

/-- What the sequencer's invariant asks of a position, given SCOPE and REQ. -/
def PositionOk (scope : Scope) (req : Option Request) : Seq → Prop
  | .idle => scope = .closed ∧ req = none
  | .start => scope = .closed ∧ req ≠ none
  | .wrote _ _ next => next = .returnEmpty → scope = .closed
  | .gotData _ | .gotBlock _ => True
  | q => LineOk scope q

theorem sequencerInv_iff {s : State} : SequencerInv s ↔ ScopeInv s ∧ PositionOk s.scope s.req s.seq := by
  constructor
  · rintro ⟨hidle, hstart, hemit, hpending, hop, hframe, hpacket, hset, hreset, hflash⟩
    refine ⟨⟨hpending, hop, hflash⟩, ?_⟩
    cases hq : s.seq with
    | idle => exact hidle hq
    | start => exact hstart hq
    | emit r => exact hemit r hq
    | frame f => exact hframe f hq
    | packet raw =>
      obtain ⟨i, hi⟩ := hpacket raw hq
      exact ⟨i, hi, fun p hp => hset raw p hq (hp ▸ hi)⟩
    | wrote n a next => exact fun hnext => hreset n a (hnext ▸ hq)
    | _ => trivial
  · rintro ⟨⟨hpending, hop, hflash⟩, hpos⟩
    refine ⟨fun h => ?_, fun h => ?_, fun r h => ?_, hpending, hop, fun f h => ?_, fun raw h => ?_, fun raw p h hd => ?_,
      fun n a h => ?_, hflash⟩ <;> rw [h] at hpos
    · exact hpos
    · exact hpos
    · exact hpos
    · exact hpos
    · obtain ⟨i, hi, _⟩ := hpos
      exact ⟨i, hi⟩
    · obtain ⟨i, hi, hclosed⟩ := hpos
      exact hclosed p (Except.ok.inj (hi.symm.trans hd))
    · exact hpos rfl

variable {s : State}

theorem ScopeInv.of_eq {t : State} (h : ScopeInv s) (hpending : t.pendingErr = s.pendingErr) (hscope : t.scope = s.scope)
    (hreq : t.req = s.req) (hflash : t.env.ref.flash = s.env.ref.flash) : ScopeInv t where
  pending_in_exit := by rw [hpending, hscope]; exact h.pending_in_exit
  scope_op := by unfold currentOp; rw [hscope, hreq]; exact h.scope_op
  flash_wf := by rw [hflash]; exact h.flash_wf

/-- With the scope closed and no error pending, only the flash array is left to be kept. -/
theorem ScopeInv.of_closed (hscope : s.scope = .closed) (hpending : s.pendingErr = none)
    (hflash : s.env.ref.flash.mem.wf = true) : ScopeInv s :=
  ⟨fun h => absurd hpending h, fun h => absurd hscope h, hflash⟩

theorem ScopeInv.pending_none_of_closed (h : ScopeInv s) (hscope : s.scope = .closed) : s.pendingErr = none := by
  by_contra hpending
  rcases h.pending_in_exit hpending with hs | hs <;> rw [hscope] at hs <;> cases hs

/-- The block stands at a line that the invariant allows. -/
def AtLine (s : State) : Prop := ScopeInv s ∧ LineOk s.scope s.seq

/-- The block may go to any line that SCOPE allows. -/
theorem ScopeInv.goTo (h : ScopeInv s) {q : Seq} (hline : LineOk s.scope q) : AtLine { s with seq := q } :=
  ⟨h.of_eq rfl rfl rfl rfl, hline⟩

/-! ### The Flash Controller's frames and the block's packets -/

theorem rdsrFrame_ok {scope : Scope} : LineOk scope (.frame rdsrFrame) :=
  ⟨by decide, by decide⟩

theorem wrenFrame_ok {scope : Scope} : LineOk scope (.frame wrenFrame) :=
  ⟨by decide, by decide⟩

theorem wrdiFrame_ok {scope : Scope} : LineOk scope (.frame wrdiFrame) :=
  ⟨by decide, by decide⟩

theorem fastReadFrame_ok {scope : Scope} (a n : Nat) :
    LineOk scope (.frame (fastReadFrame a n)) :=
  ⟨rfl, by simp [frameTooLong, fastReadFrame, paddingOf, payloadLimit, blockBytes]⟩

theorem frameEmpty_scopeBody : frameEmpty (scopeBody s) = false := by
  unfold scopeBody
  split <;> rfl

/-- Decode undoes Encode for every payload that a packet can declare (R72, R97). -/
theorem decodePacket_encodePacket (c : Word) {p : List Byte} (hp : p.length < payloadLimit) :
    decodePacket (encodePacket c p) = .ok (c, p) := by
  have hlen : (encodePacket c p).length - hdrBytes = p.length := by simp
  have hdeclared : (fromLe32 (slice (encodePacket c p) 4 8)).toNat = p.length := by
    have : slice (encodePacket c p) 4 8 = le32 (BitVec.ofNat 32 p.length) := rfl
    rw [this, fromLe32_le32, BitVec.toNat_ofNat, Nat.mod_eq_of_lt hp]
  have hcommand : fromLe32 (slice (encodePacket c p) 0 4) = c := by
    have : slice (encodePacket c p) 0 4 = le32 c := rfl
    rw [this, fromLe32_le32]
  have hpayload : (encodePacket c p).drop hdrBytes = p := rfl
  unfold decodePacket
  rw [if_neg (by simp)]
  simp only [hlen, hdeclared, hcommand, hpayload, ne_eq, not_true_eq_false, if_false]

theorem decodeWire_setRegister {p : List Byte} (hp : p.length < payloadLimit) :
    decodeWire (encodePacket cmdSetRegister p) = .ok (.setRegister p) := by
  unfold decodeWire
  rw [decodePacket_encodePacket _ hp]
  rfl

theorem decodeWire_readRegister : decodeWire (encodePacket cmdReadRegister []) = .ok .readRegister := by
  unfold decodeWire
  rw [decodePacket_encodePacket _ (by decide)]
  rfl

theorem decodeWire_readData : decodeWire (encodePacket cmdReadData []) = .ok .readDataPkt := by
  unfold decodeWire
  rw [decodePacket_encodePacket _ (by decide)]
  rfl

theorem readDataLine_ok {scope : Scope} : LineOk scope readDataLine :=
  ⟨_, decodeWire_readData, by simp⟩

theorem readRegisterLine_ok {scope : Scope} : LineOk scope readRegisterLine :=
  ⟨_, decodeWire_readRegister, by simp⟩

/-! ### The operations between two events -/

/-- Error entry keeps the invariant from every scope position (R124, R134). -/
theorem ScopeInv.raiseErr_atLine (h : ScopeInv s) (e : Err) : AtLine (raiseErr e s) := by
  cases hscope : s.scope with
  | closed =>
    rw [raiseErr_outside s hscope]
    exact h.goTo hscope
  | body =>
    rw [raiseErr_body s hscope]
    have hop : mutating (currentOp s) = true := h.scope_op (by simp [hscope])
    exact ⟨⟨fun _ => .inl rfl, fun _ => hop, h.flash_wf⟩, rdsrFrame_ok⟩
  | polling =>
    rw [raiseErr_exit s (.inl hscope)]
    exact ⟨.of_closed rfl rfl h.flash_wf, rfl⟩
  | closing =>
    rw [raiseErr_exit s (.inr hscope)]
    exact ⟨.of_closed rfl rfl h.flash_wf, rfl⟩

theorem ScopeInv.issueFrame_atLine (h : ScopeInv s) {f : Frame} (hf : frameEmpty f = false) :
    AtLine (issueFrame f s) := by
  rcases issueFrame_cases s f with ⟨hlong, e⟩ | ⟨_, e⟩ <;> rw [e]
  · exact h.goTo ⟨hf, hlong⟩
  · exact h.raiseErr_atLine _

theorem ScopeInv.readLoop_atLine (h : ScopeInv s) (hscope : s.scope = .closed) (a n : Nat) :
    AtLine (readLoop a n s) := by
  rcases readLoop_cases s a n with ⟨_, e⟩ | ⟨_, e⟩ | ⟨_, e⟩ <;> rw [e]
  · exact h.goTo (fastReadFrame_ok _ _)
  · exact h.raiseErr_atLine _
  · exact h.goTo hscope

theorem ScopeInv.beginPage_atLine (h : ScopeInv s) (a : Nat) : AtLine (beginPage a s) := by
  rcases beginPage_cases s a with ⟨_, e⟩ | ⟨_, e⟩ <;> rw [e]
  · exact h.goTo wrenFrame_ok
  · exact h.raiseErr_atLine _

theorem ScopeInv.programLoop_atLine (h : ScopeInv s) (hscope : s.scope = .closed) (a : Nat) (p : List Byte) (n k : Nat) :
    AtLine (programLoop a p n k s) := by
  have hk : ScopeInv { s with k := skipBlank p n p.length k } := h.of_eq rfl rfl rfl rfl
  rcases programLoop_cases s a p n k with ⟨_, e⟩ | ⟨_, e⟩ <;> rw [e]
  · exact hk.beginPage_atLine _
  · exact hk.goTo hscope

/-- The scope's body is entered behind WREN, by an operation that may open a scope (R38, R124). -/
theorem ScopeInv.enterBody_atLine (h : ScopeInv s) (hop : mutating (currentOp s) = true) : AtLine (enterBody s) := by
  have hbody : ScopeInv { s with scope := .body, pendingErr := none } :=
    ⟨fun hne => absurd rfl hne, fun _ => hop, h.flash_wf⟩
  exact hbody.issueFrame_atLine frameEmpty_scopeBody

theorem ScopeInv.startPoll_atLine (h : ScopeInv s) (hscope : s.scope = .body) : AtLine (startPoll s) := by
  have hop : mutating (currentOp s) = true := h.scope_op (by simp [hscope])
  exact ⟨⟨fun _ => .inl rfl, fun _ => hop, h.flash_wf⟩, rdsrFrame_ok⟩

theorem ScopeInv.pollAnswer_atLine (h : ScopeInv s) (hscope : s.scope = .polling) (v : List Byte) :
    AtLine (pollAnswer v s) := by
  have hop : mutating (currentOp s) = true := h.scope_op (by simp [hscope])
  rcases pollAnswer_cases s v with ⟨_, e⟩ | ⟨b, _, _, _, e⟩ | ⟨b, _, _, _, e⟩ <;> rw [e]
  · exact h.goTo rdsrFrame_ok
  · exact ⟨⟨fun _ => .inr rfl, fun _ => hop, h.flash_wf⟩, wrdiFrame_ok⟩
  · exact ⟨h.of_eq rfl rfl rfl rfl, rdsrFrame_ok⟩

theorem ScopeInv.returnTransact_atLine (h : ScopeInv s) (v : List Byte) : AtLine (returnTransact v s) := by
  rcases returnTransact_cases s v with ⟨a, n, hscope, _, e⟩ | ⟨_, hop, e⟩ | ⟨hscope, e⟩ | ⟨hscope, e⟩ | ⟨hscope, e⟩ |
    ⟨x, _, _, e⟩ | ⟨a, p, n, _, hpending, _, e⟩ | ⟨_, hpending, _, e⟩ <;> rw [e]
  · have hacc : ScopeInv { s with acc := s.acc ++ v } := h.of_eq rfl rfl rfl rfl
    exact hacc.readLoop_atLine hscope _ _
  · exact h.enterBody_atLine hop
  · exact h.goTo hscope
  · exact h.startPoll_atLine hscope
  · exact h.pollAnswer_atLine hscope v
  · have hclosed : ScopeInv { s with scope := .closed, pendingErr := none } := .of_closed rfl rfl h.flash_wf
    exact hclosed.raiseErr_atLine x
  · have hclosed : ScopeInv { s with scope := .closed } := .of_closed rfl hpending h.flash_wf
    exact hclosed.programLoop_atLine rfl a p n _
  · have hclosed : ScopeInv { s with scope := .closed } := .of_closed rfl hpending h.flash_wf
    exact hclosed.goTo rfl

/-! ### The computation behind an event -/

/-- RESET's packet line holds SET_REGISTER with RESET's Register Block, outside a scope (R120). -/
theorem ScopeInv.startReset_atLine (h : ScopeInv s) (hscope : s.scope = .closed) : AtLine (startReset s) := by
  have hrb : ScopeInv { s with rb := resetBlock s.cfg } := h.of_eq rfl rfl rfl rfl
  have hwire := decodeWire_setRegister (p := serialize (resetBlock s.cfg)) (by rw [serialize_length]; decide)
  exact hrb.goTo ⟨_, hwire, fun _ _ => hscope⟩

theorem ScopeInv.startOp_atLine (h : ScopeInv s) (hscope : s.scope = .closed) : AtLine (startOp s) := by
  rcases startOp_cases s with ⟨_, e⟩ | ⟨f, hf, e⟩ | ⟨x, e⟩ | ⟨a, n, _, e⟩ | ⟨_, e⟩ | ⟨a, p, n, _, e⟩ | ⟨f, hf, e⟩ | e <;>
    rw [e]
  · exact h.startReset_atLine hscope
  · rcases hf with rfl | rfl <;> exact h.goTo ⟨by decide, by decide⟩
  · exact h.raiseErr_atLine x
  · have hacc : ScopeInv { s with acc := [] } := h.of_eq rfl rfl rfl rfl
    exact hacc.readLoop_atLine hscope a n
  · exact h.goTo wrenFrame_ok
  · exact h.programLoop_atLine hscope a p n 0
  · exact h.issueFrame_atLine hf
  · exact h.goTo hscope

theorem ScopeInv.goLine_atLine (h : ScopeInv s) {next : Line} (hnext : next = .returnEmpty → s.scope = .closed) :
    AtLine (goLine next s) := by
  have hdata : ScopeInv { s with data := [] } := h.of_eq rfl rfl rfl rfl
  cases next with
  | returnEmpty => exact h.goTo (hnext rfl)
  | askData => exact hdata.goTo readDataLine_ok
  | askBlock => exact hdata.goTo readRegisterLine_ok
  | recvData => exact h.goTo trivial
  | recvBlock => exact h.goTo trivial

/-- From IDLE the pure computation of a step leads nowhere, from any other position to a line that the invariant allows
(R33). -/
theorem proceed_atLine (h : SequencerInv s) (hbusy : s.seq ≠ .idle) : AtLine (proceed s) := by
  obtain ⟨hscope, hpos⟩ := sequencerInv_iff.1 h
  rcases proceed_cases s with ⟨hq, e⟩ | ⟨n, a, next, hq, e⟩ | ⟨a, _, e⟩ | ⟨a, _, e⟩ | ⟨hq, e⟩ <;> rw [e]
  · rw [hq] at hpos
    obtain ⟨hclosed, _⟩ := hpos
    exact hscope.startOp_atLine hclosed
  · rw [hq] at hpos
    rcases afterWrite_cases s n a next with ⟨_, e⟩ | ⟨x, _, e⟩ <;> rw [e]
    · exact hscope.goLine_atLine hpos
    · exact hscope.raiseErr_atLine x
  · rcases afterData_cases s a with ⟨x, _, e⟩ | ⟨_, p, _, _, e⟩ | ⟨_, p, _, _, e⟩ <;> rw [e]
    · exact hscope.raiseErr_atLine x
    · exact hscope.raiseErr_atLine _
    · have hdata : ScopeInv { s with data := p } := hscope.of_eq rfl rfl rfl rfl
      exact hdata.goTo readRegisterLine_ok
  · rcases afterBlock_cases s a with ⟨x, e⟩ | ⟨_, _, _, _, _, _, e⟩ <;> rw [e]
    · exact hscope.raiseErr_atLine x
    · exact hscope.returnTransact_atLine _
  · refine ⟨hscope, ?_⟩
    rcases hq with ⟨f, hq⟩ | ⟨raw, hq⟩ | hq | hq | ⟨r, hq⟩ | hq
    case inr.inr.inr.inr.inr => exact absurd hq hbusy
    all_goals rw [hq] at hpos ⊢; exact hpos

/-! ### The event at a line -/

theorem answerWrite_flash_wf (raw : List Byte) (h : s.env.ref.flash.mem.wf = true) :
    (answerWrite raw s).2.ref.flash.mem.wf = true := by
  rcases answerWrite_cases s raw with ⟨_, e⟩ | ⟨_, _, e⟩ | ⟨_, _, _, e⟩ | ⟨_, _, _, e⟩ <;> rw [e]
  · exact h
  · exact h
  · exact h
  · exact refWrite_wf _ _ _ h

theorem answerRead_flash (m : Nat) : (answerRead m s).2.ref.flash = s.env.ref.flash := by
  rcases answerRead_cases s m with ⟨_, e⟩ | ⟨_, _, e⟩ | ⟨_, _, e⟩ <;> rw [e]
  exact refRead_flash _ _ _

theorem answerOpen_ref : (answerOpen s).2.ref = s.env.ref := by
  unfold answerOpen
  cases s.env.kind <;> rfl

theorem ScopeInv.sendPacket_inv (h : ScopeInv s) (c : Word) (p : List Byte) {next : Line}
    (hnext : next = .returnEmpty → s.scope = .closed) : SequencerInv (sendPacket c p next s) :=
  sequencerInv_iff.2 ⟨⟨h.pending_in_exit, h.scope_op, answerWrite_flash_wf _ h.flash_wf⟩, hnext⟩

theorem ScopeInv.sendTransact_inv (h : ScopeInv s) (f : Frame) : SequencerInv (sendTransact f s) := by
  have hbuilt : ScopeInv { s with
      td := describe f.wbytes.length f.rdLen f.dummy
      rb := transactBlock s.cfg (describe f.wbytes.length f.rdLen f.dummy) } := h.of_eq rfl rfl rfl rfl
  refine hbuilt.sendPacket_inv _ _ fun hnext => ?_
  split_ifs at hnext

theorem ScopeInv.recvDataStep_inv (h : ScopeInv s) : SequencerInv (recvDataStep s) :=
  sequencerInv_iff.2 ⟨h.of_eq rfl rfl rfl (answerRead_flash _), trivial⟩

theorem ScopeInv.recvBlockStep_inv (h : ScopeInv s) : SequencerInv (recvBlockStep s) :=
  sequencerInv_iff.2 ⟨h.of_eq rfl rfl rfl (answerRead_flash _), trivial⟩

theorem ScopeInv.emitStep_inv (h : ScopeInv s) (hscope : s.scope = .closed) (r : Result) :
    SequencerInv (emitStep r s) :=
  sequencerInv_iff.2 ⟨.of_closed hscope (h.pending_none_of_closed hscope) h.flash_wf, hscope, rfl⟩

/-- A transaction line that the invariant allows writes its SET_REGISTER packet. -/
theorem runTransact_of_ok {f : Frame} (hempty : frameEmpty f = false) (hlong : frameTooLong f = false) :
    runTransact f s = sendTransact f s := by
  simp [runTransact, hempty, hlong]

/-- A wire command writes its packet; SET_REGISTER needs the scope closed, since it ends RESET. -/
theorem ScopeInv.exec_wire (h : ScopeInv s) {i : Instr} {raw : List Byte} (hi : decodeWire raw = .ok i)
    (hset : ∀ p, i = .setRegister p → s.scope = .closed) :
    ∃ t, exec i s = .next t ∧ EndsWithEvent s t ∧ SequencerInv t := by
  rcases decodeWire_cases hi with ⟨p, rfl⟩ | rfl | rfl
  · exact ⟨_, rfl, sendPacket_endsWithEvent _ _ _ _, h.sendPacket_inv _ _ fun _ => hset p rfl⟩
  · exact ⟨_, rfl, sendPacket_endsWithEvent _ _ _ _, h.sendPacket_inv _ _ (by simp)⟩
  · exact ⟨_, rfl, sendPacket_endsWithEvent _ _ _ _, h.sendPacket_inv _ _ (by simp)⟩

/-- At a line that the invariant allows the event has a next state, and keeps the invariant. -/
theorem AtLine.runs (h : AtLine s) :
    ∃ t, runFetched (fetchLine s) = .next t ∧ EndsWithEvent s t ∧ SequencerInv t := by
  obtain ⟨hscope, hline⟩ := h
  cases hq : s.seq with
  | frame f =>
    rw [hq] at hline
    obtain ⟨hempty, hlong⟩ := hline
    rw [runFetched_frame s hq, runTransact_of_ok hempty hlong]
    exact ⟨_, rfl, sendTransact_endsWithEvent s f, hscope.sendTransact_inv f⟩
  | packet raw =>
    rw [hq] at hline
    obtain ⟨i, hi, hset⟩ := hline
    rw [runFetched_instr_line (.inl ⟨raw, hq, rfl⟩) hi]
    exact hscope.exec_wire hi hset
  | recvData => exact ⟨_, by rw [fetchLine, hq]; rfl, recvDataStep_endsWithEvent s, hscope.recvDataStep_inv⟩
  | recvBlock => exact ⟨_, by rw [fetchLine, hq]; rfl, recvBlockStep_endsWithEvent s, hscope.recvBlockStep_inv⟩
  | emit r =>
    rw [hq] at hline
    exact ⟨_, by rw [fetchLine, hq]; rfl, emitStep_endsWithEvent hq, hscope.emitStep_inv hline r⟩
  | _ => rw [hq] at hline; exact hline.elim

theorem runFetched_idle (h : s.seq = .idle) : runFetched (fetchLine (proceed s)) = .next s := by
  rw [proceed_idle h, fetchLine, h]
  rfl

/-- The sequencer's own step under the invariant: it waits at IDLE, or it ends with one event. -/
theorem sequencer_runs (h : SequencerInv s) :
    ∃ t, runFetched (fetchLine (proceed s)) = .next t ∧ SequencerInv t ∧
      ((s.seq = .idle ∧ t = s) ∨ (s.seq ≠ .idle ∧ EndsWithEvent (proceed s) t)) := by
  by_cases hidle : s.seq = .idle
  · exact ⟨s, runFetched_idle hidle, h, .inl ⟨hidle, rfl⟩⟩
  · obtain ⟨t, hrun, hevent, ht⟩ := (proceed_atLine h hidle).runs
    exact ⟨t, hrun, ht, .inr ⟨hidle, hevent⟩⟩

/-! ### The request port -/

theorem sequencerInv_of_eq {t : State} (h : SequencerInv s) (hseq : t.seq = s.seq) (hpending : t.pendingErr = s.pendingErr)
    (hscope : t.scope = s.scope) (hreq : t.req = s.req) (hflash : t.env.ref.flash = s.env.ref.flash) :
    SequencerInv t := by
  obtain ⟨hinv, hpos⟩ := sequencerInv_iff.1 h
  exact sequencerInv_iff.2 ⟨hinv.of_eq hpending hscope hreq hflash, by rw [hscope, hreq, hseq]; exact hpos⟩

theorem withPort_inv (h : SequencerInv s) (port : List PortInput) : SequencerInv { s with port := port } :=
  sequencerInv_of_eq h rfl rfl rfl rfl rfl

theorem usbClose_inv (h : SequencerInv s) : SequencerInv (usbClose s) := sequencerInv_of_eq h rfl rfl rfl rfl rfl

theorem openHandle_inv (h : SequencerInv s) : SequencerInv (openHandle s) := by
  obtain ⟨_, _, e⟩ := openHandle_eq s
  rw [e]
  exact sequencerInv_of_eq h rfl rfl rfl rfl (congrArg RefEnv.flash answerOpen_ref)

theorem goesOn_inv {u : State} (h : SequencerInv s) (hu : GoesOn s u) : SequencerInv u := by
  rcases hu with rfl | ⟨rest, _, rfl⟩
  · exact h
  · exact withPort_inv h rest

/-- An accepted request is latched, outside a scope. -/
theorem takesRequest_inv {t : State} (h : SequencerInv s) (ht : TakesRequest s t) : SequencerInv t := by
  obtain ⟨_, _, _, _, _, hidle, hq, rfl⟩ := ht
  obtain ⟨hinv, hpos⟩ := sequencerInv_iff.1 h
  rw [hidle] at hpos
  obtain ⟨hscope, _⟩ := hpos
  refine sequencerInv_iff.2 ⟨.of_closed hscope (hinv.pending_none_of_closed hscope) hinv.flash_wf, ?_⟩
  rcases hq with rfl | rfl
  · exact ⟨hscope, by simp⟩
  · exact hscope

theorem takes_inv {t : State} (h : SequencerInv s) (ht : TakesClose s t ∨ TakesOpen s t ∨ TakesRequest s t) :
    SequencerInv t := by
  rcases ht with ⟨rest, _, rfl⟩ | ⟨rest, v, _, _, hv, rfl⟩ | ht
  · exact usbClose_inv (withPort_inv h rest)
  · rcases hv with rfl | rfl
    · exact openHandle_inv (withPort_inv h rest)
    · exact openHandle_inv (usbClose_inv (withPort_inv h rest))
  · exact takesRequest_inv h ht

end Sys2Proof.Proofs.Sequencer

open Sys2Proof Sys2Proof.Machine Sys2Proof.Safety Sys2Proof.Proofs.Steps Sys2Proof.Proofs.Sequencer in
/-- Settles O49: a step takes an item off the port, which touches nothing the invariant speaks of but REQ and SEQ, or the
sequencer goes on; its computation leads to a line that the invariant allows, and the event there keeps it. -/
theorem everyStepKeepsTheInvariant : Obligations.EveryStepKeepsTheInvariant := by
  unfold Obligations.EveryStepKeepsTheInvariant
  intro s h
  rcases step_goes_on_or_takes s with ⟨u, hu, e⟩ | ⟨t, e, htakes⟩
  · obtain ⟨t, hrun, ht, _⟩ := sequencer_runs (goesOn_inv h hu)
    exact ⟨t, e.trans hrun, ht⟩
  · exact ⟨t, e, takes_inv h htakes⟩

open Sys2Proof Sys2Proof.Machine Sys2Proof.Safety in
/-- Settles O48: power-on reset leaves the block idle and without calls. -/
theorem invariantsHoldAtReset : Obligations.InvariantsHoldAtReset := by
  unfold Obligations.InvariantsHoldAtReset
  refine ⟨Sys2Proof.Proofs.Sequencer.sequencerInv_iff.2 ⟨.of_closed rfl rfl reset_flash_wf, rfl, rfl⟩, ?_⟩
  refine ⟨rfl, ?_, ?_⟩ <;> rintro (h | ⟨_, _, h⟩) <;> cases h

open Sys2Proof Sys2Proof.Machine in
/-- Settles O47: with an empty port the idle block fetches nothing. -/
theorem resetState : Obligations.ResetState := by
  unfold Obligations.ResetState
  exact ⟨rfl, rfl, rfl, rfl, rfl, rfl, rfl⟩

open Sys2Proof Sys2Proof.Machine Sys2Proof.Safety Sys2Proof.Proofs.Steps Sys2Proof.Proofs.Sequencer in
/-- Settles O52: without the invariant from what the event at a line can add to the events; with it from the kinds of step,
the sequencer's own being a wait at IDLE or one event behind the computation. -/
theorem oneTransportCallEachStep : Obligations.OneTransportCallEachStep := by
  unfold Obligations.OneTransportCallEachStep
  refine ⟨fun s t h => ?_, fun s t hinv h => ?_⟩
  · rcases step_next_cases h with ⟨u, hu, hrun⟩ | ⟨rest, hport, rfl⟩ | ht | ⟨_, _, _, _, _, _, _, rfl⟩
    · rcases line_event_or_no_call hrun with hevent | hnone
      · rcases goesOn_event hu hevent with ⟨raw, a, _, hev, _⟩ | ⟨m, a, hev, _⟩ | ⟨_, hev, _⟩
        · exact .inr (.inl ⟨raw, a, hev⟩)
        · exact .inr (.inr (.inl ⟨m, a, hev⟩))
        · exact .inl hev
      · exact .inl (hnone.trans (goesOn_events hu))
    · exact .inr (.inr (.inr ⟨_, rest, hport, .inl rfl⟩))
    · obtain ⟨rest, hport, _⟩ := takesOpen_keeps ht
      exact .inr (.inr (.inr ⟨_, rest, hport, .inr (takesOpen_events ht)⟩))
    · exact .inl rfl
  · rcases step_next_cases h with ⟨u, hu, hrun⟩ | ⟨rest, hport, rfl⟩ | ht | ⟨r, rest, _, q, hport, hidle, hq, rfl⟩
    · obtain ⟨t', hrun', _, hkind⟩ := sequencer_runs (goesOn_inv hinv hu)
      cases hrun.symm.trans hrun'
      have hseq : u.seq = s.seq := by rcases hu with rfl | ⟨_, _, rfl⟩ <;> rfl
      rw [hseq] at hkind
      rcases hkind with ⟨hidle, rfl⟩ | ⟨hbusy, hevent⟩
      · exact .inr (.inr (.inr (.inr (.inr ⟨hidle, hu⟩))))
      · rcases goesOn_event hu hevent with hwrite | hread | ⟨r, hev, hidle, hresult⟩
        · exact .inr (.inl hwrite)
        · exact .inr (.inr (.inl hread))
        · exact .inr (.inr (.inr (.inl ⟨hbusy, hidle, hev, r, hresult⟩)))
    · exact .inr (.inr (.inr (.inr (.inl ⟨_, rest, hport, rfl, rfl⟩))))
    · obtain ⟨rest, hport, hrest, hseq, _⟩ := takesOpen_keeps ht
      exact .inr (.inr (.inr (.inr (.inl ⟨_, rest, hport, hrest, hseq⟩))))
    · exact .inl ⟨hidle, rfl, r, rest, hport, rfl, by simp, hq⟩
end

section
/-! Where requests and wire commands complete (10_state.md R33): the acceptance at IDLE with the head of each operation
behind it, and the packet of each wire command. -/

namespace Sys2Proof.Proofs.Acceptance

open Sys2Proof.Machine Sys2Proof.Safety

variable {s : State}

/-! ### The argument checks (R46, R96) -/

theorem rangeBad_iff (a n : Nat) : rangeBad a n = true ↔ 2 ^ 24 ≤ a ∨ 2 ^ 24 < a + n := by
  simp [rangeBad, flashSize]

theorem frameTooLong_iff (f : Frame) :
    frameTooLong f = true ↔ 2 ^ 32 ≤ 40 + (f.wbytes.length + paddingOf f.wbytes.length) := by
  simp [frameTooLong, payloadLimit, blockBytes]

theorem frameEmpty_iff (f : Frame) : frameEmpty f = true ↔ f.wbytes = [] ∧ f.rdLen = 0 := by
  simp [frameEmpty]

theorem frameEmpty_of_work {w : List Byte} {n : Nat} (d : Nat) (h : w ≠ [] ∨ n ≠ 0) : frameEmpty ⟨w, n, d⟩ = false := by
  rw [Bool.eq_false_iff, Ne, frameEmpty_iff, not_and_or]
  exact h

/-! ### The heads of the operations, from the state right behind an acceptance -/

theorem readLoop_nil_zero (a : Nat) (h : s.acc = []) : readLoop a 0 s = { s with seq := .emit (.ok []) } := by
  simp [readLoop, h, finishOp]

theorem readLoop_nil_pos {n : Nat} (a : Nat) (h : s.acc = []) (hn : n ≠ 0) :
    readLoop a n s = { s with seq := .frame (fastReadFrame a (min maxXfer n)) } := by
  simp [readLoop, h, Nat.pos_of_ne_zero hn]

theorem startReadData_of_range {a n : Nat} (hscope : s.scope = .closed) (h : 2 ^ 24 ≤ a ∨ 2 ^ 24 < a + n) :
    startReadData a n s = { s with seq := .emit (.err (.invalidArgument (.range a n))) } := by
  rw [startReadData, if_pos ((rangeBad_iff a n).2 h), raiseErr_outside s hscope]

theorem startReadData_of_fits {a n : Nat} (ha : a < 2 ^ 24) (hn : a + n ≤ 2 ^ 24) :
    startReadData a n s = readLoop a n { s with acc := [] } := by
  rw [startReadData, if_neg (by rw [rangeBad_iff]; omega)]

theorem beginPage_of_fits {a : Nat} (h : a < 2 ^ 24) : beginPage a s = { s with seq := .frame wrenFrame } := by
  rcases beginPage_cases s a with ⟨_, e⟩ | ⟨ha, _⟩
  · exact e
  · exact absurd h (Nat.not_lt.2 ha)

theorem beginPage_of_beyond {a : Nat} (hscope : s.scope = .closed) (h : 2 ^ 24 ≤ a) :
    beginPage a s = { s with seq := .emit (.err (.invalidArgument (.addr a))) } := by
  rcases beginPage_cases s a with ⟨ha, _⟩ | ⟨_, e⟩
  · exact absurd ha (Nat.not_lt.2 h)
  · rw [e, raiseErr_outside s hscope]

/-- ERASE_64KB has the head of PROGRAM_PAGE: the address check, then the scope (R128, R129). -/
theorem startErase64kb_eq_beginPage (a : Nat) : startErase64kb a s = beginPage a s := rfl

theorem startProgram_of_pageSize_zero (a : Nat) (p : List Byte) (hscope : s.scope = .closed) :
    startProgram a p 0 s = { s with seq := .emit (.err (.invalidArgument (.pageSize 0))) } := by
  rw [startProgram, if_pos rfl, raiseErr_outside s hscope]

theorem startProgram_of_range {a n : Nat} {p : List Byte} (hscope : s.scope = .closed) (hn : n ≠ 0)
    (h : 2 ^ 24 ≤ a ∨ 2 ^ 24 < a + p.length) :
    startProgram a p n s = { s with seq := .emit (.err (.invalidArgument (.range a p.length))) } := by
  rw [startProgram, if_neg hn, if_pos ((rangeBad_iff a p.length).2 h), raiseErr_outside s hscope]

theorem startProgram_of_fits {a n : Nat} {p : List Byte} (hn : n ≠ 0) (ha : a < 2 ^ 24) (hp : a + p.length ≤ 2 ^ 24) :
    startProgram a p n s = programLoop a p n 0 s := by
  rw [startProgram, if_neg hn, if_neg (by rw [rangeBad_iff]; omega)]

theorem startTransact_of_short {f : Frame} (hf : frameEmpty f = false)
    (h : 40 + (f.wbytes.length + paddingOf f.wbytes.length) < 2 ^ 32) :
    startTransact f s = { s with seq := .frame f } := by
  have hshort : frameTooLong f = false := by rw [Bool.eq_false_iff, Ne, frameTooLong_iff]; omega
  simp [startTransact, issueFrame, hf, hshort]

theorem startTransact_of_long {f : Frame} (hscope : s.scope = .closed) (hf : frameEmpty f = false)
    (h : 2 ^ 32 ≤ 40 + (f.wbytes.length + paddingOf f.wbytes.length)) :
    startTransact f s = { s with seq := .emit (.err (.invalidArgument (.wbytes f.wbytes))) } := by
  have hlong : frameTooLong f = true := (frameTooLong_iff f).2 h
  simp [startTransact, issueFrame, hf, hlong, raiseErr_outside s hscope]

/-! ### PROGRAM's first chunk that is not blank (R130) -/

/-- `skipBlank` passes over chunks of the payload that are blank, and over nothing else. -/
theorem skipBlank_passes_blank (p : List Byte) (n fuel : Nat) : ∀ k j, k ≤ j → j < skipBlank p n fuel k →
    j * n < p.length ∧ chunkBlank (programChunk p n j) = true := by
  induction fuel with
  | zero =>
    intro k j hkj hj
    rw [skipBlank] at hj
    omega
  | succ fuel ih =>
    intro k j hkj hj
    rw [skipBlank] at hj
    split_ifs at hj with hblank
    · rcases hkj.eq_or_lt with rfl | hlt
      · exact hblank
      · exact ih (k + 1) j hlt hj
    · omega

/-- With fuel enough to pass the payload's end, a chunk at which `skipBlank` stops inside the payload is not blank. -/
theorem skipBlank_stops_at_chunk {p : List Byte} {n : Nat} (fuel : Nat) : ∀ k, p.length ≤ (k + fuel) * n →
    skipBlank p n fuel k * n < p.length → chunkBlank (programChunk p n (skipBlank p n fuel k)) = false := by
  induction fuel with
  | zero =>
    intro k hfuel hin
    rw [skipBlank] at hin
    exact absurd hin (Nat.not_lt.2 hfuel)
  | succ fuel ih =>
    intro k hfuel hin
    rw [skipBlank] at hin ⊢
    split_ifs at hin ⊢ with hblank
    · exact ih (k + 1) (by rwa [Nat.add_right_comm, Nat.add_assoc]) hin
    · simpa [hin] using hblank

/-- The payload's length is fuel enough for pages of at least one byte. -/
theorem length_le_fuel {n : Nat} (p : List Byte) (hn : n ≠ 0) : p.length ≤ (0 + p.length) * n := by
  rw [Nat.zero_add]
  exact Nat.le_mul_of_pos_right _ (Nat.pos_of_ne_zero hn)

/-! ### The wire commands -/

theorem sendPacket_eq (c : Word) (p : List Byte) (next : Line) :
    sendPacket c p next s = { s with
      env := (answerWrite (encodePacket c p) s).2
      events := .wrote (encodePacket c p) s.cfg.timeoutMs (answerWrite (encodePacket c p) s).1 :: s.events
      seq := .wrote (8 + p.length) (answerWrite (encodePacket c p) s).1 next } := by
  rw [← encodePacket_length c p]
  rfl

/-- Behind a packet that the transport takes whole the next line stands (R99). -/
theorem proceed_sendPacket_taken {c : Word} {p : List Byte} (next : Line) (h : takesPacket (encodePacket c p) s) :
    proceed (sendPacket c p next s) = goLine next (sendPacket c p next s) := by
  have hproceed : proceed (sendPacket c p next s) =
      afterWrite (encodePacket c p).length (answerWrite (encodePacket c p) s).1 next (sendPacket c p next s) := rfl
  rw [hproceed, show (answerWrite (encodePacket c p) s).1 = _ from h, afterWrite_of_taken]

end Sys2Proof.Proofs.Acceptance

open Sys2Proof Sys2Proof.Machine Sys2Proof.Safety in
/-- Settles O18: each acceptance latches its request, and the operation's head is one assignment. -/
theorem resetAndIdentifyAreAccepted : Obligations.ResetAndIdentifyAreAccepted := by
  unfold Obligations.ResetAndIdentifyAreAccepted
  intro s hidle
  refine ⟨⟨?_, rfl⟩, ⟨?_, rfl⟩, ?_, rfl⟩
  · exact congrArg Host.Outcome.next (accept_idle s hidle)
  · exact congrArg Host.Outcome.next (accept_idle s hidle)
  · exact congrArg Host.Outcome.next (accept_idle s hidle)

open Sys2Proof Sys2Proof.Machine Sys2Proof.Safety Sys2Proof.Proofs.Acceptance in
/-- Settles O19: the head is READ_DATA's range check, then its loop with nothing gathered. -/
theorem readDataIsAccepted : Obligations.ReadDataIsAccepted := by
  unfold Obligations.ReadDataIsAccepted
  intro s a n hidle hscope r
  have hhead : proceed (accepted r s) = startReadData a n (accepted r s) := rfl
  rw [hhead]
  refine ⟨congrArg Host.Outcome.next (accept_idle s hidle), fun h => ?_, fun ha hn h0 => ?_, fun ha hn h0 => ?_⟩
  · exact startReadData_of_range hscope h
  · subst h0
    exact (startReadData_of_fits ha hn).trans (readLoop_nil_zero a rfl)
  · exact (startReadData_of_fits ha hn).trans (readLoop_nil_pos a rfl h0)

open Sys2Proof Sys2Proof.Machine Sys2Proof.Safety Sys2Proof.Proofs.Acceptance in
/-- Settles O20: both operations begin with PROGRAM_PAGE's head. -/
theorem eraseAndPageAreAccepted : Obligations.EraseAndPageAreAccepted := by
  unfold Obligations.EraseAndPageAreAccepted
  intro s a p hidle hscope re rp
  have herase : proceed (accepted re s) = beginPage a (accepted re s) := startErase64kb_eq_beginPage a
  have hpage : proceed (accepted rp s) = beginPage a (accepted rp s) := rfl
  rw [herase, hpage]
  refine ⟨congrArg Host.Outcome.next (accept_idle s hidle), congrArg Host.Outcome.next (accept_idle s hidle),
    fun h => ⟨beginPage_of_fits h, beginPage_of_fits h⟩, fun h => ⟨?_, ?_⟩⟩
  · exact beginPage_of_beyond hscope h
  · exact beginPage_of_beyond hscope h

open Sys2Proof Sys2Proof.Machine Sys2Proof.Safety Sys2Proof.Proofs.Acceptance in
/-- Settles O21: the two argument checks, then the chunk at which `skipBlank` stops; inside the payload its address fits 24
bits with the payload. -/
theorem programIsAccepted : Obligations.ProgramIsAccepted := by
  unfold Obligations.ProgramIsAccepted
  intro s a n p hidle hscope r
  have hhead : proceed (accepted r s) = startProgram a p n (accepted r s) := rfl
  rw [hhead]
  refine ⟨congrArg Host.Outcome.next (accept_idle s hidle), fun hn => ?_, fun hn h => ?_, fun hn ha hp => ?_⟩
  · subst hn
    exact startProgram_of_pageSize_zero a p hscope
  · exact startProgram_of_range hscope hn h
  · rw [startProgram_of_fits hn ha hp]
    refine ⟨skipBlank p n p.length 0, fun j hj => skipBlank_passes_blank p n _ 0 j j.zero_le hj, ?_⟩
    rcases programLoop_cases (accepted r s) a p n 0 with ⟨hin, e⟩ | ⟨hend, e⟩ <;> rw [e]
    · exact .inl ⟨hin, skipBlank_stops_at_chunk p.length 0 (length_le_fuel p hn) hin, beginPage_of_fits (by omega)⟩
    · exact .inr ⟨hend, rfl⟩

open Sys2Proof Sys2Proof.Machine Sys2Proof.Safety Sys2Proof.Proofs.Acceptance in
/-- Settles O23: the transaction is not the empty one, so its head is the length check of R96. -/
theorem transactIsAccepted : Obligations.TransactIsAccepted := by
  unfold Obligations.TransactIsAccepted
  intro s w n d hidle hscope hwork r
  have hnonempty : frameEmpty ⟨w, n, d⟩ = false := frameEmpty_of_work d hwork
  have hhead : proceed (accepted r s) = startTransact ⟨w, n, d⟩ (accepted r s) := rfl
  rw [hhead]
  refine ⟨?_, fun h => startTransact_of_short hnonempty h, fun h => startTransact_of_long hscope hnonempty h⟩
  simp only [exec, execTransact, hnonempty, Bool.false_eq_true, if_false, accept_idle s hidle]
  rfl

open Sys2Proof Sys2Proof.Machine Sys2Proof.Safety Sys2Proof.Proofs.Acceptance in
/-- Settles O26: each wire command is the one write of its packet. -/
theorem wireCommandsWriteTheirPackets : Obligations.WireCommandsWriteTheirPackets := by
  unfold Obligations.WireCommandsWriteTheirPackets
  intro s p
  refine ⟨⟨sendPacket cmdSetRegister p .returnEmpty s, sendPacket_eq _ _ _, rfl, fun h => ?_⟩,
    ⟨sendPacket cmdReadRegister [] .recvBlock s, rfl, rfl, fun h => ?_⟩,
    sendPacket cmdReadData [] .recvData s, rfl, rfl, fun h => ?_⟩
  · exact proceed_sendPacket_taken .returnEmpty h
  · exact proceed_sendPacket_taken .recvBlock h
  · exact proceed_sendPacket_taken .recvData h
end

section
/-! The Register Block (40_register_block.md R88 to R94): a field's bits inside one word, the field in its slot, and the
forty bytes. -/

namespace Sys2Proof.Proofs.RegisterBlock

open Sys2Proof.Machine

/-! ### A field's bits inside one word (R16, R90, R91) -/

theorem maskWord_getLsbD (w j : Nat) : (maskWord w).getLsbD j = (decide (j < 32) && decide (j < w)) := by
  rw [maskWord, BitVec.getLsbD_ofNat, Nat.testBit_two_pow_sub_one]

/-- A field write reads as the value at the field's bits and as the old word at every other bit. -/
theorem bitsSet_getLsbD (word : Word) (b : FieldBits) (v : Nat) {j : Nat} (hj : j < 32) :
    (bitsSet word b v).getLsbD j =
      if b.lo ≤ j ∧ j < b.lo + b.width then v.testBit (j - b.lo) else word.getLsbD j := by
  have hsub : j - b.lo < 32 := by omega
  simp only [bitsSet, BitVec.getLsbD_or, BitVec.getLsbD_and, BitVec.getLsbD_not, BitVec.getLsbD_shiftLeft,
    maskWord_getLsbD, BitVec.getLsbD_ofNat, hj, hsub, decide_true, Bool.true_and]
  by_cases hlo : j < b.lo
  · simp [hlo, Nat.not_le.2 hlo]
  · by_cases hhi : j - b.lo < b.width
    · rw [if_pos (by omega)]
      simp [hlo, hhi]
    · rw [if_neg (by omega)]
      simp [hhi]

theorem bitsSet_getLsbD_outside (word : Word) (b : FieldBits) (v : Nat) {j : Nat} (hj : j < 32)
    (hout : j < b.lo ∨ b.lo + b.width ≤ j) : (bitsSet word b v).getLsbD j = word.getLsbD j := by
  rw [bitsSet_getLsbD word b v hj, if_neg (by omega)]

/-- A field inside its word is the word's value shifted down and cut to the width. -/
theorem bitsGet_eq (word : Word) {b : FieldBits} (hb : b.lo + b.width ≤ 32) :
    bitsGet word b = word.toNat / 2 ^ b.lo % 2 ^ b.width := by
  have hmask : (maskWord b.width).toNat = 2 ^ b.width - 1 := by
    have : 2 ^ b.width ≤ 2 ^ 32 := Nat.pow_le_pow_right (by decide) (by omega)
    rw [maskWord, BitVec.toNat_ofNat]
    exact Nat.mod_eq_of_lt (by omega)
  rw [bitsGet, BitVec.toNat_and, hmask, Nat.and_two_pow_sub_one_eq_mod, BitVec.toNat_ushiftRight, Nat.shiftRight_eq_div_pow]

theorem bitsGet_testBit (word : Word) {b : FieldBits} (hb : b.lo + b.width ≤ 32) (i : Nat) :
    (bitsGet word b).testBit i = (decide (i < b.width) && word.getLsbD (b.lo + i)) := by
  rw [bitsGet_eq word hb, Nat.testBit_mod_two_pow, Nat.testBit_div_two_pow, BitVec.getLsbD, Nat.add_comm i]

theorem bitsGet_bitsSet_same (word : Word) {b : FieldBits} (hb : b.lo + b.width ≤ 32) (v : Nat) :
    bitsGet (bitsSet word b v) b = v % 2 ^ b.width := by
  apply Nat.eq_of_testBit_eq
  intro i
  rw [bitsGet_testBit _ hb, Nat.testBit_mod_two_pow]
  by_cases hi : i < b.width
  · rw [bitsSet_getLsbD word b v (by omega), if_pos (by omega), Nat.add_sub_cancel_left]
  · simp [hi]

/-- Neither of two fields of a register claims a bit of the other. -/
def Apart (d b : FieldBits) : Prop := d.lo + d.width ≤ b.lo ∨ b.lo + b.width ≤ d.lo

theorem bitsGet_bitsSet_apart (word : Word) {b d : FieldBits} (hd : d.lo + d.width ≤ 32) (h : Apart d b) (v : Nat) :
    bitsGet (bitsSet word b v) d = bitsGet word d := by
  unfold Apart at h
  apply Nat.eq_of_testBit_eq
  intro i
  rw [bitsGet_testBit _ hd, bitsGet_testBit _ hd]
  by_cases hi : i < d.width
  · rw [bitsSet_getLsbD_outside word b v (by omega) (by omega)]
  · simp [hi]

theorem bitsSet_comm (word : Word) {b d : FieldBits} (h : Apart d b) (v w : Nat) :
    bitsSet (bitsSet word b v) d w = bitsSet (bitsSet word d w) b v := by
  unfold Apart at h
  apply BitVec.eq_of_getLsbD_eq
  intro j hj
  by_cases hjb : b.lo ≤ j ∧ j < b.lo + b.width
  · rw [bitsSet_getLsbD_outside _ d w hj (by omega), bitsSet_getLsbD _ b v hj, bitsSet_getLsbD _ b v hj, if_pos hjb,
      if_pos hjb]
  · rw [bitsSet_getLsbD_outside _ b v hj (by omega), bitsSet_getLsbD _ d w hj, bitsSet_getLsbD _ d w hj,
      bitsSet_getLsbD_outside word b v hj (by omega)]

/-! ### The field in its slot -/

theorem slotSet_slotSet {α : Type} (t : Slots α) (i : Fin 10) (v w : α) : slotSet (slotSet t i v) i w = slotSet t i w := by
  fin_cases i <;> rfl

section Slot

variable {c : Config} {f : Field} {i : Fin 10} {b : FieldBits}

theorem fieldGet_placed (rb : RegBlock) (hi : regSlot c (fieldReg f) = some i) (hb : fieldBits c f = some b) :
    fieldGet c rb f = bitsGet (wordGet rb i) b := by
  simp only [fieldGet, hi, hb]

theorem fieldSet_placed (rb : RegBlock) (v : Nat) (hi : regSlot c (fieldReg f) = some i) (hb : fieldBits c f = some b) :
    fieldSet c rb f v = slotSet rb i (bitsSet (wordGet rb i) b v) := by
  simp only [fieldSet, hi, hb]

/-- A field write is the write of its bits in the word of its slot. -/
theorem wordGet_fieldSet_same (rb : RegBlock) (v : Nat) (hi : regSlot c (fieldReg f) = some i)
    (hb : fieldBits c f = some b) : wordGet (fieldSet c rb f v) i = bitsSet (wordGet rb i) b v := by
  rw [fieldSet_placed rb v hi hb]
  exact slotGet_slotSet_same rb i _

theorem wordGet_fieldSet_ne (rb : RegBlock) (v : Nat) {j : Fin 10} (hi : regSlot c (fieldReg f) = some i)
    (hb : fieldBits c f = some b) (hj : j ≠ i) : wordGet (fieldSet c rb f v) j = wordGet rb j := by
  rw [fieldSet_placed rb v hi hb]
  exact slotGet_slotSet_ne rb i j _ hj.symm

theorem fieldGet_fieldSet_apart (rb : RegBlock) (v : Nat) {g : Field} {d : FieldBits}
    (hi : regSlot c (fieldReg f) = some i) (hb : fieldBits c f = some b) (hig : regSlot c (fieldReg g) = some i)
    (hd : fieldBits c g = some d) (hd32 : d.lo + d.width ≤ 32) (h : Apart d b) :
    fieldGet c (fieldSet c rb f v) g = fieldGet c rb g := by
  rw [fieldGet_placed _ hig hd, fieldGet_placed _ hig hd, wordGet_fieldSet_same rb v hi hb,
    bitsGet_bitsSet_apart _ hd32 h]

theorem fieldSet_comm (rb : RegBlock) (v w : Nat) {g : Field} {d : FieldBits}
    (hi : regSlot c (fieldReg f) = some i) (hb : fieldBits c f = some b) (hig : regSlot c (fieldReg g) = some i)
    (hd : fieldBits c g = some d) (h : Apart d b) :
    fieldSet c (fieldSet c rb f v) g w = fieldSet c (fieldSet c rb g w) f v := by
  rw [fieldSet_placed _ w hig hd, fieldSet_placed (fieldSet c rb g w) v hi hb, wordGet_fieldSet_same rb v hi hb,
    wordGet_fieldSet_same rb w hig hd, fieldSet_placed rb v hi hb, fieldSet_placed rb w hig hd, slotSet_slotSet,
    slotSet_slotSet, bitsSet_comm _ h]

end Slot

/-! ### The forty bytes (R92, R93) -/

theorem blockOfBytes_serialize (rb : RegBlock) : blockOfBytes (serialize rb) = rb := by
  have hslices : blockOfBytes (serialize rb) =
      ⟨fromLe32 (le32 rb.x0), fromLe32 (le32 rb.x1), fromLe32 (le32 rb.x2), fromLe32 (le32 rb.x3), fromLe32 (le32 rb.x4),
        fromLe32 (le32 rb.x5), fromLe32 (le32 rb.x6), fromLe32 (le32 rb.x7), fromLe32 (le32 rb.x8),
        fromLe32 (le32 rb.x9)⟩ := rfl
  rw [hslices]
  simp only [fromLe32_le32]

theorem deserialize_of_length {s : List Byte} (h : s.length = 40) : deserialize s = .ok (blockOfBytes s) := by
  rw [deserialize, if_neg (by simpa using h)]

theorem le32_fromLe32 {s : List Byte} (h : s.length = 4) : le32 (fromLe32 s) = s := by
  match s, h with
  | [b0, b1, b2, b3], _ => exact le32_fromLe32_bytes b0 b1 b2 b3

theorem le32_fromLe32_slice {s : List Byte} {i j : Nat} (hij : j = i + 4) (hs : j ≤ s.length) :
    le32 (fromLe32 (slice s i j)) = slice s i j :=
  le32_fromLe32 (by rw [slice, List.length_take, List.length_drop]; omega)

theorem slice_append_drop (s : List Byte) {i j : Nat} (hij : i ≤ j) : slice s i j ++ s.drop j = s.drop i := by
  have hdrop : s.drop j = (s.drop i).drop (j - i) := by rw [List.drop_drop, Nat.add_sub_cancel' hij]
  rw [slice, hdrop, List.take_append_drop]

/-- The ten words of forty bytes, written out again, are the ten slices of the bytes. -/
theorem serialize_blockOfBytes {s : List Byte} (h : s.length = 40) : serialize (blockOfBytes s) = s := by
  have hword : ∀ i, i + 4 ≤ 40 → le32 (fromLe32 (slice s i (i + 4))) ++ s.drop (i + 4) = s.drop i := by
    intro i hi
    rw [le32_fromLe32_slice rfl (by omega), slice_append_drop s (by omega)]
  have hend : s.drop 40 = [] := List.drop_eq_nil_of_le h.le
  calc serialize (blockOfBytes s)
      = serialize (blockOfBytes s) ++ s.drop 40 := by rw [hend, List.append_nil]
    _ = s.drop 0 := by
      simp only [serialize, blockOfBytes, List.append_assoc]
      rw [hword 36 (by omega), hword 32 (by omega), hword 28 (by omega), hword 24 (by omega), hword 20 (by omega),
        hword 16 (by omega), hword 12 (by omega), hword 8 (by omega), hword 4 (by omega), hword 0 (by omega)]
    _ = s := rfl

end Sys2Proof.Proofs.RegisterBlock

open Sys2Proof Sys2Proof.Machine Sys2Proof.Proofs.RegisterBlock in
/-- Settles O8: the laws of one word's bits, carried to the field's slot, and the two directions between ten words and forty
bytes. -/
theorem registerBlockLaws : Obligations.RegisterBlockLaws := by
  unfold Obligations.RegisterBlockLaws
  refine ⟨fun rb => ?_, fun s hs => ?_, fun c rb f v i b hi hb hb32 => ⟨?_, fun j hj hout => ?_, ?_, fun j hj => ?_, ?_⟩⟩
  · rw [deserialize_of_length (serialize_length rb), blockOfBytes_serialize]
  · exact ⟨blockOfBytes s, deserialize_of_length hs, serialize_blockOfBytes hs⟩
  · rw [fieldGet_placed _ hi hb, wordGet_fieldSet_same rb v hi hb, bitsGet_bitsSet_same _ hb32]
  · rw [wordGet_fieldSet_same rb v hi hb, bitsSet_getLsbD_outside _ b v hj hout]
  · intro g d hreg hd hd32 hapart
    have hig : regSlot c (fieldReg g) = some i := hreg ▸ hi
    exact ⟨fieldGet_fieldSet_apart rb v hi hb hig hd hd32 hapart,
      fun w => fieldSet_comm rb v w hi hb hig hd hapart⟩
  · exact wordGet_fieldSet_ne rb v hi hb hj
  · rw [fieldGet_placed rb hi hb, bitsGet_eq _ hb32]
end

section
/-! Half-duplex order of the transport calls (20_memory.md R59): the position that reads an answer is reached only from the
write of its request. -/

namespace Sys2Proof.Proofs.HalfDuplexOrder

open Sys2Proof.Machine Sys2Proof.Safety Sys2Proof.Proofs.Steps

/-! ### The request whose answer is still to be read -/

/-- The request packet whose answer the position still has to read, if there is one. -/
def awaited : Seq → Option (List Byte)
  | .recvData | .wrote _ _ .recvData => some readDataPacket
  | .recvBlock | .wrote _ _ .recvBlock => some readRegisterPacket
  | _ => none

/-- The newest call is the write of the packet. -/
def LastWrote (packet : List Byte) (events : List Event) : Prop :=
  ∃ t a, lastCall events = some (.wrote packet t a)

theorem awaited_eq_readData {q : Seq} :
    awaited q = some readDataPacket ↔ q = .recvData ∨ ∃ n a, q = .wrote n a .recvData := by
  have hne : readRegisterPacket ≠ readDataPacket := by decide
  cases q with
  | wrote n a next => cases next <;> simp [awaited, hne]
  | _ => simp [awaited, hne]

theorem awaited_eq_readRegister {q : Seq} :
    awaited q = some readRegisterPacket ↔ q = .recvBlock ∨ ∃ n a, q = .wrote n a .recvBlock := by
  have hne : readDataPacket ≠ readRegisterPacket := by decide
  cases q with
  | wrote n a next => cases next <;> simp [awaited, hne]
  | _ => simp [awaited, hne]

theorem awaited_packet {q : Seq} {packet : List Byte} (h : awaited q = some packet) :
    packet = readDataPacket ∨ packet = readRegisterPacket := by
  unfold awaited at h
  split at h <;> simp_all

theorem halfDuplex_iff {s : State} : HalfDuplex s ↔
    readsFollow s.events = true ∧ ∀ packet, awaited s.seq = some packet → LastWrote packet s.events := by
  constructor
  · rintro ⟨hreads, hdata, hblock⟩
    refine ⟨hreads, fun packet h => ?_⟩
    rcases awaited_packet h with rfl | rfl
    · exact hdata (awaited_eq_readData.1 h)
    · exact hblock (awaited_eq_readRegister.1 h)
  · rintro ⟨hreads, hlast⟩
    exact ⟨hreads, fun h => hlast _ (awaited_eq_readData.2 h), fun h => hlast _ (awaited_eq_readRegister.2 h)⟩

theorem halfDuplex_of_nothing_awaited {s : State} (hreads : readsFollow s.events = true) (h : awaited s.seq = none) :
    HalfDuplex s :=
  halfDuplex_iff.2 ⟨hreads, by simp [h]⟩

/-! ### The computation behind an event leads to a read only from the write of its request -/

variable (s : State)

theorem raiseErr_awaits_nothing (e : Err) : awaited (raiseErr e s).seq = none := by
  rcases raiseErr_cases s e with ⟨_, h, _⟩ | ⟨_, h, _⟩ <;> rw [h] <;> rfl

theorem issueFrame_awaits_nothing (f : Frame) : awaited (issueFrame f s).seq = none := by
  rcases issueFrame_cases s f with ⟨_, e⟩ | ⟨_, e⟩ <;> rw [e]
  · rfl
  · exact raiseErr_awaits_nothing s _

theorem readLoop_awaits_nothing (a n : Nat) : awaited (readLoop a n s).seq = none := by
  rcases readLoop_cases s a n with ⟨_, e⟩ | ⟨_, e⟩ | ⟨_, e⟩ <;> rw [e]
  · rfl
  · exact raiseErr_awaits_nothing s _
  · rfl

theorem beginPage_awaits_nothing (a : Nat) : awaited (beginPage a s).seq = none := by
  rcases beginPage_cases s a with ⟨_, e⟩ | ⟨_, e⟩ <;> rw [e]
  · rfl
  · exact raiseErr_awaits_nothing s _

theorem programLoop_awaits_nothing (a : Nat) (p : List Byte) (n k : Nat) :
    awaited (programLoop a p n k s).seq = none := by
  rcases programLoop_cases s a p n k with ⟨_, e⟩ | ⟨_, e⟩ <;> rw [e]
  · exact beginPage_awaits_nothing _ _
  · rfl

theorem pollAnswer_awaits_nothing (v : List Byte) : awaited (pollAnswer v s).seq = none := by
  rcases pollAnswer_cases s v with ⟨_, e⟩ | ⟨_, _, _, _, e⟩ | ⟨_, _, _, _, e⟩ <;> rw [e] <;> rfl

theorem returnTransact_awaits_nothing (v : List Byte) : awaited (returnTransact v s).seq = none := by
  rcases returnTransact_cases s v with ⟨_, _, _, _, e⟩ | ⟨_, _, e⟩ | ⟨_, e⟩ | ⟨_, e⟩ | ⟨_, e⟩ | ⟨_, _, _, e⟩ |
    ⟨_, _, _, _, _, _, e⟩ | ⟨_, _, _, e⟩ <;> rw [e]
  · exact readLoop_awaits_nothing _ _ _
  · exact issueFrame_awaits_nothing _ _
  · rfl
  · rfl
  · exact pollAnswer_awaits_nothing _ _
  · exact raiseErr_awaits_nothing _ _
  · exact programLoop_awaits_nothing _ _ _ _ _
  · rfl

theorem startOp_awaits_nothing : awaited (startOp s).seq = none := by
  rcases startOp_cases s with ⟨_, e⟩ | ⟨_, _, e⟩ | ⟨_, e⟩ | ⟨_, _, _, e⟩ | ⟨_, e⟩ | ⟨_, _, _, _, e⟩ | ⟨_, _, e⟩ | e <;> rw [e]
  · rfl
  · rfl
  · exact raiseErr_awaits_nothing _ _
  · exact readLoop_awaits_nothing _ _ _
  · rfl
  · exact programLoop_awaits_nothing _ _ _ _ _
  · exact issueFrame_awaits_nothing _ _
  · rfl

/-- Behind a write the line that reads is reached only where the write was of its request. -/
theorem afterWrite_awaits (n : Nat) (a : WriteAnswer) (next : Line) :
    awaited (afterWrite n a next s).seq = none ∨ awaited (afterWrite n a next s).seq = awaited (.wrote n a next) := by
  rcases afterWrite_cases s n a next with ⟨_, e⟩ | ⟨_, _, e⟩ <;> rw [e]
  · cases next with
    | recvData | recvBlock => exact .inr rfl
    | returnEmpty | askData | askBlock => exact .inl rfl
  · exact .inl (raiseErr_awaits_nothing _ _)

/-- The computation never makes a read due that was not due before it. -/
theorem proceed_awaits : awaited (proceed s).seq = none ∨ awaited (proceed s).seq = awaited s.seq := by
  rcases proceed_cases s with ⟨_, e⟩ | ⟨n, a, next, hq, e⟩ | ⟨a, _, e⟩ | ⟨a, _, e⟩ | ⟨_, e⟩ <;> rw [e]
  · exact .inl (startOp_awaits_nothing s)
  · rw [hq]
    exact afterWrite_awaits s n a next
  · left
    rcases afterData_cases s a with ⟨_, _, e⟩ | ⟨_, _, _, _, e⟩ | ⟨_, _, _, _, e⟩ <;> rw [e]
    · exact raiseErr_awaits_nothing _ _
    · exact raiseErr_awaits_nothing _ _
    · rfl
  · left
    rcases afterBlock_cases s a with ⟨_, e⟩ | ⟨_, _, _, _, _, _, e⟩ <;> rw [e]
    · exact raiseErr_awaits_nothing _ _
    · exact returnTransact_awaits_nothing _ _
  · exact .inr rfl

variable {s}

theorem proceed_halfDuplex (h : HalfDuplex s) : HalfDuplex (proceed s) := by
  obtain ⟨hreads, hlast⟩ := halfDuplex_iff.1 h
  rw [← proceed_events s] at hreads hlast
  rcases proceed_awaits s with hnone | hsame
  · exact halfDuplex_of_nothing_awaited hreads hnone
  · exact halfDuplex_iff.2 ⟨hreads, by rwa [hsame]⟩

/-! ### The events and the request port -/

/-- A write is always in order; the read that is due behind it is the read of its own answer. -/
theorem sendPacket_halfDuplex (h : HalfDuplex s) (c : Word) (p : List Byte) {next : Line}
    (hnext : ∀ packet, awaited (.wrote 0 (.count 0) next) = some packet → packet = encodePacket c p) :
    HalfDuplex (sendPacket c p next s) := by
  refine halfDuplex_iff.2 ⟨h.reads_follow, fun packet hp => ?_⟩
  have hsame : awaited (sendPacket c p next s).seq = awaited (.wrote 0 (.count 0) next) := by cases next <;> rfl
  rw [hnext packet (hsame ▸ hp)]
  exact ⟨_, _, rfl⟩

/-- A read behind the write of a request it may answer is in order. -/
theorem read_halfDuplex {t : State} {max timeoutMs : Nat} {a : ReadAnswer} (h : HalfDuplex s)
    (hevents : t.events = .readUpTo max timeoutMs a :: s.events) (hasked : asksFor max (lastCall s.events) = true)
    (hseq : awaited t.seq = none) : HalfDuplex t := by
  refine halfDuplex_of_nothing_awaited ?_ hseq
  rw [hevents, readsFollow, hasked, h.reads_follow]
  rfl

theorem recvDataStep_halfDuplex (h : HalfDuplex s) (hq : s.seq = .recvData) : HalfDuplex (recvDataStep s) := by
  obtain ⟨t, a, hlast⟩ := h.data_asked (.inl hq)
  exact read_halfDuplex h rfl (by simp [hlast, asksFor]) rfl

theorem recvBlockStep_halfDuplex (h : HalfDuplex s) (hq : s.seq = .recvBlock) : HalfDuplex (recvBlockStep s) := by
  obtain ⟨t, a, hlast⟩ := h.block_asked (.inl hq)
  exact read_halfDuplex h rfl (by simp [hlast, asksFor]) rfl

theorem runTransact_halfDuplex (h : HalfDuplex s) (f : Frame) : HalfDuplex (runTransact f s) := by
  rcases runTransact_cases s f with ⟨_, e⟩ | ⟨_, _, e⟩ | ⟨_, _, e⟩ <;> rw [e]
  · exact halfDuplex_of_nothing_awaited (by simpa using h.reads_follow) (returnTransact_awaits_nothing s _)
  · exact halfDuplex_of_nothing_awaited (by simpa using h.reads_follow) (raiseErr_awaits_nothing s _)
  · refine halfDuplex_of_nothing_awaited (s := sendTransact f s) h.reads_follow ?_
    rw [sendTransact_eq, afterSet]
    split_ifs <;> rfl

theorem line_halfDuplex {t : State} (h : HalfDuplex s) (hrun : runFetched (fetchLine s) = .next t) : HalfDuplex t := by
  rcases runFetched_fetchLine_cases s hrun with ⟨f, _, rfl⟩ | ⟨_, c, p, next, _, rfl, hwire⟩ | ⟨hq, rfl⟩ | ⟨hq, rfl⟩ |
    ⟨r, _, rfl⟩ | ⟨_, rfl⟩
  · exact runTransact_halfDuplex h f
  · refine sendPacket_halfDuplex h c p ?_
    rcases hwire with ⟨_, rfl, rfl⟩ | ⟨_, rfl, rfl, rfl⟩ | ⟨_, rfl, rfl, rfl⟩
    · rintro _ ⟨⟩
    · rintro _ ⟨⟩; rfl
    · rintro _ ⟨⟩; rfl
  · exact recvDataStep_halfDuplex h hq
  · exact recvBlockStep_halfDuplex h hq
  · exact halfDuplex_of_nothing_awaited h.reads_follow rfl
  · exact h

/-- A close between a request and its answer leaves the request the newest other call. -/
theorem takesClose_halfDuplex {t : State} (h : HalfDuplex s) (ht : TakesClose s t) : HalfDuplex t := by
  obtain ⟨rest, _, rfl⟩ := ht
  exact ⟨h.reads_follow, h.data_asked, h.block_asked⟩

theorem takesOpen_halfDuplex {t : State} (h : HalfDuplex s) (ht : TakesOpen s t) : HalfDuplex t := by
  obtain ⟨_, _, _, hseq, hidle⟩ := takesOpen_keeps ht
  refine halfDuplex_of_nothing_awaited ?_ (by rw [hseq, hidle]; rfl)
  obtain ⟨a, hevents | hevents⟩ := takesOpen_events ht <;> rw [hevents] <;> exact h.reads_follow

theorem takesRequest_halfDuplex {t : State} (h : HalfDuplex s) (ht : TakesRequest s t) : HalfDuplex t := by
  obtain ⟨_, _, _, q, _, _, hq, rfl⟩ := ht
  refine halfDuplex_of_nothing_awaited h.reads_follow ?_
  rcases hq with rfl | rfl <;> rfl

theorem goesOn_halfDuplex {u : State} (h : HalfDuplex s) (hu : GoesOn s u) : HalfDuplex u := by
  rcases hu with rfl | ⟨_, _, rfl⟩
  · exact h
  · exact ⟨h.reads_follow, h.data_asked, h.block_asked⟩

end Sys2Proof.Proofs.HalfDuplexOrder

open Sys2Proof Sys2Proof.Machine Sys2Proof.Safety Sys2Proof.Proofs.Steps Sys2Proof.Proofs.HalfDuplexOrder in
/-- Settles O50: what is taken off the port leaves no read due that was not due before, and the sequencer's own step reads
only where the newest call but for closes is the request's write. -/
theorem everyStepKeepsHalfDuplex : Obligations.EveryStepKeepsHalfDuplex := by
  unfold Obligations.EveryStepKeepsHalfDuplex
  intro s t h hstep
  rcases step_next_cases hstep with ⟨u, hu, hrun⟩ | ht | ht | ht
  · exact line_halfDuplex (proceed_halfDuplex (goesOn_halfDuplex h hu)) hrun
  · exact takesClose_halfDuplex h ht
  · exact takesOpen_halfDuplex h ht
  · exact takesRequest_halfDuplex h ht
end

section
/-! Flash addresses and flash ranges (20_memory.md R45, R46, R49): the three bytes of an address, and the requests whose range
does not fit. -/

namespace Sys2Proof.Proofs.FlashRanges

open Sys2Proof.Machine Sys2Proof.Safety Sys2Proof.Proofs.Acceptance

/-! ### The three bytes of an address -/

theorem be24_bytes (a : Nat) : be24 a = [BitVec.ofNat 8 (a / 65536), BitVec.ofNat 8 (a / 256), BitVec.ofNat 8 a] := rfl

theorem be24_high_byte {a : Nat} (h : a < 2 ^ 24) : (BitVec.ofNat 8 (a / 65536)).toNat = a / 65536 := by
  rw [BitVec.toNat_ofNat]
  omega

/-! ### A request whose head raises an error -/

/-- The block at IDLE with an empty port that is presented the request `r`. -/
def presented (r : Request) (s : State) : State := { s with seq := .idle, port := [.request r] }

theorem withEncoded_request {s : State} (r : Request) (hport : s.port = []) :
    s.withEncoded (.request r) = presented r s := by
  rw [State.withEncoded, hport]
  rfl

/-- The acceptance of a request that is no empty TRANSACT takes the first step. -/
theorem step_presented {s : State} {r : Request}
    (h : exec (decodeRequest r) { s with seq := .idle, port := [] } =
      .next (accepted r { s with port := [] })) :
    step (presented r s) = .next (accepted r { s with port := [] }) := h

/-- A request whose head ends in `r` is answered in two steps, with no transport call. -/
theorem runSteps_emit_at_head {s : State} {r : Request} {res : Result}
    (haccept : exec (decodeRequest r) { s with seq := .idle, port := [] } = .next (accepted r { s with port := [] }))
    (hhead : proceed (accepted r { s with port := [] }) = { accepted r { s with port := [] } with seq := .emit res }) :
    runSteps 2 (presented r s) = .next (emitStep res { accepted r { s with port := [] } with seq := .emit res }) := by
  have hemit : step (accepted r { s with port := [] }) =
      .next (emitStep res { accepted r { s with port := [] } with seq := .emit res }) := by
    rw [step, fetch_no_input _ rfl, fetchSeq, hhead]
    rfl
  rw [runSteps, step_presented haccept]
  simp only [runSteps, hemit]

end Sys2Proof.Proofs.FlashRanges

open Sys2Proof Sys2Proof.Machine Sys2Proof.Proofs.FlashRanges in
/-- Settles O6: below `2^24` the high byte is not cut. -/
theorem addressesAreBigEndian : Obligations.AddressesAreBigEndian := by
  unfold Obligations.AddressesAreBigEndian
  refine ⟨by decide, fun a ha => ⟨_, _, _, be24_bytes a, be24_high_byte ha, ?_, ?_, fromBe24_be24_aux a ha⟩⟩
  · exact BitVec.toNat_ofNat _ _
  · exact BitVec.toNat_ofNat _ _

open Sys2Proof Sys2Proof.Machine Sys2Proof.Safety Sys2Proof.Proofs.Acceptance Sys2Proof.Proofs.FlashRanges in
/-- Settles O44: each of the four heads begins with its check, which ends the operation before its first event. -/
theorem rangesBeyond24BitsAreRefused : Obligations.RangesBeyond24BitsAreRefused := by
  unfold Obligations.RangesBeyond24BitsAreRefused
  intro s i bad hport hscope hbad
  obtain ⟨r, hr, haccept, hhead⟩ : ∃ r, encode i = .request r ∧
      exec (decodeRequest r) { s with seq := .idle, port := [] } = .next (accepted r { s with port := [] }) ∧
      proceed (accepted r { s with port := [] }) =
        { accepted r { s with port := [] } with seq := .emit (.err (.invalidArgument bad)) } := by
    rcases hbad with ⟨a, n, rfl, h, rfl⟩ | ⟨a, p, n, rfl, hn, h, rfl⟩ | ⟨a, rfl, h, rfl⟩ | ⟨a, p, rfl, h, rfl⟩
    · exact ⟨_, rfl, rfl, startReadData_of_range (a := a) (n := n) hscope (by omega)⟩
    · exact ⟨_, rfl, rfl, startProgram_of_range (a := a) (n := n) (p := p) hscope hn (by omega)⟩
    · exact ⟨_, rfl, rfl, (startErase64kb_eq_beginPage a).trans (beginPage_of_beyond hscope (by omega))⟩
    · exact ⟨_, rfl, rfl, beginPage_of_beyond (a := a) hscope (by omega)⟩
  rw [hr, withEncoded_request r hport]
  exact ⟨_, runSteps_emit_at_head haccept hhead, rfl, rfl, rfl, rfl⟩
end

section
/-! The reference flash (20_memory.md R68): the bytes a page program meets, and what one chip-select frame does, opcode by
opcode. -/

namespace Sys2Proof.Proofs.FlashFrames

open Sys2Proof.Machine Sys2Proof.Safety

/-! ### A page program, byte by byte -/

theorem pageAddr_lt {a : Nat} (j : Nat) (ha : a < 2 ^ 24) : pageAddr a j < flashSize := by
  unfold pageAddr flashSize
  omega

theorem pageAddr_ne {a i j : Nat} (hi : i < 256) (hj : j < 256) (hij : i ≠ j) : pageAddr a i ≠ pageAddr a j := by
  unfold pageAddr
  omega

/-- Inside one page the data follow the address without wrapping. -/
theorem pageAddr_of_inside {a j : Nat} (h : a % 256 + j < 256) : pageAddr a j = a + j := by
  unfold pageAddr
  omega

theorem memRead_memProgram_outside {a x : Nat} (bytes : List Byte) : ∀ (m : Memory) (j : Nat), m.wf = true →
    (∀ i, i < bytes.length → x % flashSize ≠ pageAddr a (j + i) % flashSize) →
    memRead (memProgram m a j bytes) x = memRead m x := by
  induction bytes with
  | nil => intro m j _ _; rfl
  | cons b rest ih =>
    intro m j hm hout
    rw [memProgram, ih _ (j + 1) (memWrite_wf _ _ hm), memRead_memWrite _ _ _ hm, if_neg]
    · exact hout 0 (by simp)
    · intro i hi
      rw [Nat.add_assoc, Nat.add_comm 1]
      exact hout (i + 1) (by simpa using hi)

/-- Each data byte clears bits of the byte it meets, as long as the data fit the page. -/
theorem memRead_memProgram_at {a : Nat} (ha : a < 2 ^ 24) (bytes : List Byte) : ∀ (m : Memory) (j i : Nat), m.wf = true →
    j + bytes.length ≤ 256 → i < bytes.length →
    memRead (memProgram m a j bytes) (pageAddr a (j + i)) = memRead m (pageAddr a (j + i)) &&& bytes.getD i 0 := by
  have hmod : ∀ j, pageAddr a j % flashSize = pageAddr a j := fun j => Nat.mod_eq_of_lt (pageAddr_lt j ha)
  induction bytes with
  | nil => intro m j i _ _ hi; cases hi
  | cons b rest ih =>
    intro m j i hm hfit hi
    rw [List.length_cons] at hfit hi
    rw [memProgram]
    cases i with
    | zero =>
      rw [Nat.add_zero j, memRead_memProgram_outside rest _ _ (memWrite_wf _ _ hm), memRead_memWrite _ _ _ hm, if_pos rfl]
      · rfl
      · intro i hi
        rw [hmod, hmod]
        exact pageAddr_ne (by omega) (by omega) (by omega)
    | succ i =>
      have hstep : j + (i + 1) = j + 1 + i := by omega
      rw [hstep, ih _ (j + 1) i (memWrite_wf _ _ hm) (by omega) (by omega), memRead_memWrite _ _ _ hm, if_neg]
      · rfl
      · rw [hmod, hmod]
        exact pageAddr_ne (by omega) (by omega) (by omega)

/-! ### One frame, opcode by opcode -/

variable (rest : List Byte) (n : Nat) (f : Flash)

theorem flashFrame_rdsr :
    flashFrame (opRdsr :: rest) n f = (List.replicate n (flashStatus f), { f with busy := f.busy - 1 }) := by
  simp [flashFrame]

theorem flashFrame_busy {op : Byte} (hop : op ≠ opRdsr) (h : f.busy ≠ 0) :
    flashFrame (op :: rest) n f = (List.replicate n 0xFF#8, f) := by
  simp [flashFrame, hop, Nat.pos_of_ne_zero h]

theorem flashFrame_idle {op : Byte} (hop : op ≠ opRdsr) (h : f.busy = 0) :
    flashFrame (op :: rest) n f = flashCommand op (op :: rest) n f := by
  simp [flashFrame, hop, h]

theorem flashFrame_readId (h : f.busy = 0) : flashFrame (opReadId :: rest) n f = (answerFrom jedecId n, f) :=
  (flashFrame_idle rest n f (by decide) h).trans rfl

theorem flashFrame_readUid (h : f.busy = 0) (hlen : rest.length = 4) :
    flashFrame (opReadUid :: rest) n f = (answerFrom uniqueId n, f) := by
  have hne : opReadUid ≠ opReadId := by decide
  rw [flashFrame_idle rest n f (by decide) h]
  simp [flashCommand, hne, hlen]

theorem flashFrame_fastRead (h : f.busy = 0) (hlen : 4 ≤ rest.length) :
    flashFrame (opFastRead :: rest) n f = (memReadBytes f.mem (frameAddr (opFastRead :: rest)) n, f) := by
  have hne : opFastRead ≠ opReadId ∧ opFastRead ≠ opReadUid := by decide
  rw [flashFrame_idle rest n f (by decide) h]
  simp [flashCommand, hne, hlen]

/-- WREN sets the latch of an idle flash, and does nothing to a busy one. -/
theorem flashFrame_wren : (flashFrame (opWren :: rest) n f).2 = if f.busy = 0 then { f with wel := true } else f := by
  split_ifs with h
  · rw [flashFrame_idle rest n f (by decide) h]
    rfl
  · rw [flashFrame_busy rest n f (by decide) h]

/-- WRDI clears the latch of an idle flash, and does nothing to a busy one. -/
theorem flashFrame_wrdi : (flashFrame (opWrdi :: rest) n f).2 = if f.busy = 0 then { f with wel := false } else f := by
  split_ifs with h
  · rw [flashFrame_idle rest n f (by decide) h]
    rfl
  · rw [flashFrame_busy rest n f (by decide) h]

theorem flashFrame_blockErase (h : f.busy = 0) (hwel : f.wel = true) :
    (flashFrame (opBlockErase :: rest) n f).2 =
      { mem := memErase64k f.mem (frameAddr (opBlockErase :: rest)), wel := false, busy := busyErase } := by
  rw [flashFrame_idle rest n f (by decide) h]
  simp only [flashCommand, hwel]
  rfl

theorem flashFrame_pageProgram (h : f.busy = 0) (hwel : f.wel = true) :
    (flashFrame (opPageProgram :: rest) n f).2 =
      { mem := memProgram f.mem (frameAddr (opPageProgram :: rest)) 0 (rest.drop 3), wel := false, busy := busyProg } := by
  rw [flashFrame_idle rest n f (by decide) h]
  simp only [flashCommand, hwel]
  rfl

/-- BLOCK_ERASE_64KB and PAGE_PROGRAM do nothing to a flash that is busy or not write-enabled. -/
theorem flashFrame_disabled {op : Byte} (hop : op = opBlockErase ∨ op = opPageProgram)
    (h : f.wel = false ∨ f.busy ≠ 0) : (flashFrame (op :: rest) n f).2 = f := by
  by_cases hbusy : f.busy = 0
  · have hwel : f.wel = false := h.resolve_right (by simp [hbusy])
    rcases hop with rfl | rfl <;> rw [flashFrame_idle rest n f (by decide) hbusy] <;> simp only [flashCommand, hwel] <;> rfl
  · rcases hop with rfl | rfl <;> rw [flashFrame_busy rest n f (by decide) hbusy]

/-- Only BLOCK_ERASE_64KB and PAGE_PROGRAM store. -/
theorem flashFrame_mem_of_other {op : Byte} (herase : op ≠ opBlockErase) (hprogram : op ≠ opPageProgram) :
    (flashFrame (op :: rest) n f).2.mem = f.mem := by
  by_cases hop : op = opRdsr
  · rw [hop, flashFrame_rdsr]
  · by_cases hbusy : f.busy = 0
    · rw [flashFrame_idle rest n f hop hbusy]
      unfold flashCommand
      simp only [herase, hprogram, false_and, if_false]
      split_ifs <;> rfl
    · rw [flashFrame_busy rest n f hop hbusy]

/-- The flash answers as many bytes as are read. -/
theorem flashFrame_answer_length (frame : List Byte) : (flashFrame frame n f).1.length = n := by
  cases frame with
  | nil => exact List.length_replicate
  | cons op rest =>
    by_cases hop : op = opRdsr
    · rw [hop, flashFrame_rdsr]
      exact List.length_replicate
    · by_cases hbusy : f.busy = 0
      · rw [flashFrame_idle rest n f hop hbusy]
        unfold flashCommand
        simp only
        split_ifs <;> simp [answerFrom, memReadBytes]
      · rw [flashFrame_busy rest n f hop hbusy]
        exact List.length_replicate

/-- A frame stores nothing at an address that it may not store to. -/
theorem memRead_flashFrame_of_not_frameStores {frame : List Byte} {x : Nat} (hwf : f.mem.wf = true)
    (h : ¬frameStores frame x) : memRead (flashFrame frame n f).2.mem x = memRead f.mem x := by
  obtain ⟨hblock, hpage⟩ := not_or.1 h
  cases frame with
  | nil => rfl
  | cons op rest =>
    by_cases hop : op = opBlockErase ∨ op = opPageProgram
    · by_cases henabled : f.wel = true ∧ f.busy = 0
      · obtain ⟨hwel, hidle⟩ := henabled
        rcases hop with rfl | rfl
        · rw [flashFrame_blockErase rest n f hidle hwel, memRead_memErase64k, if_neg]
          exact fun hin => hblock ⟨rfl, hin⟩
        · rw [flashFrame_pageProgram rest n f hidle hwel]
          refine memRead_memProgram_outside _ _ _ hwf fun i hi heq => hpage ⟨rfl, i, ?_, ?_⟩
          · rw [List.length_drop] at hi
            rw [List.length_cons]
            omega
          · rw [heq, Nat.zero_add]
      · have hdisabled : f.wel = false ∨ f.busy ≠ 0 := by
          rwa [not_and_or, Bool.not_eq_true] at henabled
        rw [flashFrame_disabled rest n f hop hdisabled]
    · obtain ⟨herase, hprogram⟩ := not_or.1 hop
      rw [flashFrame_mem_of_other rest n f herase hprogram]

end Sys2Proof.Proofs.FlashFrames
end

section
/-! What a SET_REGISTER packet drives to the reference flash, under any configuration (20_memory.md R65, R66): which bytes an
instruction may change. -/

namespace Sys2Proof.Proofs.DrivenFrames

open Sys2Proof.Machine Sys2Proof.Safety Sys2Proof.Proofs.FlashFrames

/-! ### The bridge -/

/-- Decode gives a packet's own command and payload back, or rejects it (R97). -/
theorem decodePacket_encodePacket_cases (c : Word) (p : List Byte) :
    (∃ e, decodePacket (encodePacket c p) = .error e) ∨ decodePacket (encodePacket c p) = .ok (c, p) := by
  cases h : decodePacket (encodePacket c p) with
  | error e => exact .inl ⟨e, rfl⟩
  | ok x =>
    obtain ⟨c', p'⟩ := x
    obtain ⟨_, _, hc, hp⟩ := decodePacket_eq_ok h
    have hcommand : fromLe32 (slice (encodePacket c p) 0 4) = c := fromLe32_le32 c
    have hpayload : (encodePacket c p).drop hdrBytes = p := rfl
    exact .inr (by rw [hc, hp, hcommand, hpayload])

/-- SET_REGISTER leaves the flash alone, or drives it one frame. -/
theorem bridgeSet_flash_cases (c : Config) (p : List Byte) (r : RefEnv) :
    (bridgeSet c p r).flash = r.flash ∨
      ∃ frame n, drivenFrame c p = some frame ∧ (bridgeSet c p r).flash = (flashFrame frame n r.flash).2 := by
  unfold bridgeSet drivenFrame
  by_cases hshort : p.length < blockBytes
  · simp [hshort]
  · cases hreset : resetBitSet c (blockOfBytes (p.take blockBytes)) with
    | true => simp [hshort, hreset]
    | false =>
      cases hframe : bridgeFrame c (blockOfBytes (p.take blockBytes)) (p.drop blockBytes) with
      | none => simp [hshort, hreset, hframe]
      | some x => exact .inr ⟨x.1, x.2, by simp [hshort, hreset, hframe]⟩

theorem refWrite_setRegister_flash_cases (c : Config) (p : List Byte) (r : RefEnv) :
    (refWrite c (encodePacket cmdSetRegister p) r).flash = r.flash ∨
      ∃ frame n, drivenFrame c p = some frame ∧
        (refWrite c (encodePacket cmdSetRegister p) r).flash = (flashFrame frame n r.flash).2 := by
  unfold refWrite
  rcases decodePacket_encodePacket_cases cmdSetRegister p with ⟨e, h⟩ | h <;> rw [h]
  · exact .inl rfl
  · exact bridgeSet_flash_cases c p r

/-- Only SET_REGISTER reaches the flash. -/
theorem refWrite_request_flash (c : Config) {command : Word} (hcommand : command ≠ cmdSetRegister) (p : List Byte)
    (r : RefEnv) : (refWrite c (encodePacket command p) r).flash = r.flash := by
  unfold refWrite
  rcases decodePacket_encodePacket_cases command p with ⟨e, h⟩ | h <;> rw [h]
  simp only [hcommand, if_false]
  split_ifs <;> rfl

/-- The frame that a transaction's packet drives begins with the transaction's first byte, or has none. -/
theorem drivenFrame_cases {c : Config} {rb : RegBlock} {op : Byte} {rest frame : List Byte}
    (h : drivenFrame c (serialize rb ++ padded (op :: rest)) = some frame) :
    frame = [] ∨ ∃ tail, frame = op :: tail := by
  have hwrite : (serialize rb ++ padded (op :: rest)).drop blockBytes = padded (op :: rest) :=
    List.drop_left' (serialize_length rb)
  unfold drivenFrame bridgeFrame at h
  rw [hwrite] at h
  split_ifs at h
  simp only at h
  split at h <;> simp only [Option.map_some, Option.map_none, Option.some.injEq, reduceCtorEq] at h <;> subst h
  · exact .inr ⟨_, rfl⟩
  · exact .inl rfl
  · exact .inr ⟨_, rfl⟩
  · exact .inr ⟨_, rfl⟩

/-! ### The transport -/

variable (s : State)

/-- A write's packet reaches the reference environment, or the flash stays. -/
theorem answerWrite_flash_cases (raw : List Byte) :
    (answerWrite raw s).2.ref.flash = s.env.ref.flash ∨ (answerWrite raw s).2.ref = refWrite s.cfg raw s.env.ref := by
  rcases answerWrite_cases s raw with ⟨_, e⟩ | ⟨_, _, e⟩ | ⟨_, _, _, e⟩ | ⟨_, _, _, e⟩ <;> rw [e]
  · exact .inl rfl
  · exact .inl rfl
  · exact .inl rfl
  · exact .inr rfl

/-- From `s` to `t` the flash stays, or meets one frame that the payload drives. -/
def Drives (payload : List Byte) (s t : State) : Prop :=
  t.env.ref.flash = s.env.ref.flash ∨
    ∃ frame n, drivenFrame s.cfg payload = some frame ∧ t.env.ref.flash = (flashFrame frame n s.env.ref.flash).2

theorem setRegister_drives (p : List Byte) {t : State} (h : t.env = (answerWrite (encodePacket cmdSetRegister p) s).2) :
    Drives p s t := by
  unfold Drives
  rw [h]
  rcases answerWrite_flash_cases s (encodePacket cmdSetRegister p) with e | e
  · exact .inl e
  · rw [e]
    exact refWrite_setRegister_flash_cases s.cfg p s.env.ref

/-- The SET_REGISTER payload of a transaction: its block and its padded write string (R112). -/
def framePayload (c : Config) (f : Frame) : List Byte :=
  serialize (transactBlock c (describe f.wbytes.length f.rdLen f.dummy)) ++ padded f.wbytes

theorem runTransact_drives (f : Frame) : Drives (framePayload s.cfg f) s (runTransact f s) := by
  rcases runTransact_cases s f with ⟨_, e⟩ | ⟨_, _, e⟩ | ⟨_, _, e⟩ <;> rw [e]
  · exact .inl (by rw [returnTransact_env])
  · exact .inl (by rw [raiseErr_env])
  · exact setRegister_drives s _ rfl

variable {s}

/-- A frame with an opcode that does not store keeps the flash's bytes, whatever the configuration. -/
theorem runTransact_mem_of_other {op : Byte} {rest : List Byte} (rdLen dummy : Nat) (herase : op ≠ opBlockErase)
    (hprogram : op ≠ opPageProgram) :
    (runTransact ⟨op :: rest, rdLen, dummy⟩ s).env.ref.flash.mem = s.env.ref.flash.mem := by
  rcases runTransact_drives s ⟨op :: rest, rdLen, dummy⟩ with e | ⟨frame, n, hframe, e⟩ <;> rw [e]
  rcases drivenFrame_cases hframe with rfl | ⟨tail, rfl⟩
  · rfl
  · exact flashFrame_mem_of_other tail n _ herase hprogram

/-- A frame that stores does nothing to a flash that is busy or not write-enabled, whatever the configuration. -/
theorem runTransact_flash_of_disabled {op : Byte} {rest : List Byte} (rdLen dummy : Nat)
    (hop : op = opBlockErase ∨ op = opPageProgram) (h : s.env.ref.flash.wel = false ∨ s.env.ref.flash.busy ≠ 0) :
    (runTransact ⟨op :: rest, rdLen, dummy⟩ s).env.ref.flash = s.env.ref.flash := by
  rcases runTransact_drives s ⟨op :: rest, rdLen, dummy⟩ with e | ⟨frame, n, hframe, e⟩ <;> rw [e]
  rcases drivenFrame_cases hframe with rfl | ⟨tail, rfl⟩
  · rfl
  · exact flashFrame_disabled tail n _ hop h

/-! ### The instructions -/

theorem accept_env (r : Request) (position : Seq) : (accept r position s).env = s.env := by
  unfold accept
  split_ifs <;> rfl

theorem openHandle_ref : (openHandle s).env.ref = s.env.ref := by
  obtain ⟨_, _, e⟩ := Steps.openHandle_eq s
  rw [e]
  exact Sequencer.answerOpen_ref

theorem exec_openSession_ref {t : State} (h : exec .openSession s = .next t) : t.env.ref = s.env.ref := by
  simp only [exec, execOpenSession, Host.Outcome.next.injEq] at h
  subst h
  split_ifs
  · exact openHandle_ref
  · exact openHandle_ref
  · rfl

/-- READ_REGISTER and READ_DATA do not reach the flash. -/
theorem sendPacket_request_flash {command : Word} (hcommand : command ≠ cmdSetRegister) (p : List Byte) (next : Line) :
    (sendPacket command p next s).env.ref.flash = s.env.ref.flash := by
  rw [sendPacket_env]
  rcases answerWrite_flash_cases s (encodePacket command p) with e | e
  · exact e
  · rw [e]
    exact refWrite_request_flash s.cfg hcommand p s.env.ref

theorem exec_mem_of_other {t : State} {i : Instr} (h : exec i s = .next t) (hset : ∀ p, i ≠ .setRegister p)
    (herase : ∀ a, i ≠ .blockErase64kb a) (hprogram : ∀ a p, i ≠ .pageProgram a p) :
    t.env.ref.flash.mem = s.env.ref.flash.mem := by
  cases i with
  | setRegister p => exact absurd rfl (hset p)
  | blockErase64kb a => exact absurd rfl (herase a)
  | pageProgram a p => exact absurd rfl (hprogram a p)
  | reset | readId | readUid | readData | erase64kb | programPage | program | transact =>
    cases h
    exact congrArg (fun e => e.ref.flash.mem) (accept_env _ _)
  | openSession => exact congrArg (fun r => r.flash.mem) (exec_openSession_ref h)
  | closeSession => cases h; rfl
  | readRegister => cases h; exact congrArg Flash.mem (sendPacket_request_flash (by decide) _ _)
  | readDataPkt => cases h; exact congrArg Flash.mem (sendPacket_request_flash (by decide) _ _)
  | rdid | rduid | fastRead | wren | rdsr | wrdi =>
    cases h
    exact runTransact_mem_of_other _ _ (by decide) (by decide)

theorem exec_drives {t : State} {i : Instr} {payload : List Byte}
    (hi : i = .setRegister payload ∨ ∃ f, encode i = .frame f ∧ payload = framePayload s.cfg f)
    (h : exec i s = .next t) : Drives payload s t := by
  rcases hi with rfl | ⟨f, hf, rfl⟩
  · cases h
    exact setRegister_drives s payload rfl
  · rw [exec_of_encode_frame s hf] at h
    cases h
    exact runTransact_drives s f

end Sys2Proof.Proofs.DrivenFrames

open Sys2Proof Sys2Proof.Machine Sys2Proof.Safety Sys2Proof.Proofs.FlashFrames Sys2Proof.Proofs.DrivenFrames in
/-- Settles O58: the flash meets at most the one frame that the payload drives, and a frame stores only where it may. -/
theorem storesStayInsideTheFrame : Obligations.StoresStayInsideTheFrame := by
  unfold Obligations.StoresStayInsideTheFrame
  intro s t i payload x hwf hi hexec hout
  unfold flashByte
  rcases exec_drives hi hexec with e | ⟨frame, n, hframe, e⟩ <;> rw [e]
  exact memRead_flashFrame_of_not_frameStores n _ hwf (hout frame hframe)
end

section
/-! The reference bridge under the default configuration (20_memory.md R66): what the Register Block of a transaction drives,
read back from the fields that the block wrote. -/

namespace Sys2Proof.Proofs.DefaultBridge

open Sys2Proof.Machine Sys2Proof.Safety Sys2Proof.Proofs.RegisterBlock Sys2Proof.Proofs.DrivenFrames

/-! ### A counter in its field -/

section Count

variable {c : Config} {f : Field} {i : Fin 10} {b : FieldBits} (rb : RegBlock)

theorem fieldGet_fieldSet_same (n : Nat) (hi : regSlot c (fieldReg f) = some i) (hb : fieldBits c f = some b)
    (hb32 : b.lo + b.width ≤ 32) : fieldGet c (fieldSet c rb f n) f = n % 2 ^ b.width := by
  rw [fieldGet_placed _ hi hb, wordGet_fieldSet_same rb n hi hb, bitsGet_bitsSet_same _ hb32]

theorem fieldGet_setCount_apart (v : Option Nat) {g : Field} {d : FieldBits}
    (hi : regSlot c (fieldReg f) = some i) (hb : fieldBits c f = some b) (hig : regSlot c (fieldReg g) = some i)
    (hd : fieldBits c g = some d) (hd32 : d.lo + d.width ≤ 32) (h : Apart d b) :
    fieldGet c (setCount c f v rb) g = fieldGet c rb g := by
  cases v with
  | none => rfl
  | some n => exact fieldGet_fieldSet_apart rb n hi hb hig hd hd32 h

theorem wordGet_setCount_ne (v : Option Nat) {j : Fin 10} (hi : regSlot c (fieldReg f) = some i)
    (hb : fieldBits c f = some b) (hj : j ≠ i) : wordGet (setCount c f v rb) j = wordGet rb j := by
  cases v with
  | none => rfl
  | some n => exact wordGet_fieldSet_ne rb n hi hb hj

end Count

/-! ### The default configuration -/

/-- The configuration is the default one, for some values of the parameters without a default. -/
def IsDefault (c : Config) : Prop := ∃ t v p, c = defaultConfigWith t v p

/-- The field stands in slot `i` at the bits `b`, inside the word. -/
structure Placed (c : Config) (f : Field) (i : Fin 10) (b : FieldBits) : Prop where
  slot : regSlot c (fieldReg f) = some i
  bits : fieldBits c f = some b
  inside : b.lo + b.width ≤ 32

variable {c : Config}

theorem rdTranCnt_placed (h : IsDefault c) : Placed c .rdTranCnt 2 ⟨.rdTranCnt, 0, 9⟩ := by
  obtain ⟨_, _, _, rfl⟩ := h; exact ⟨rfl, rfl, by decide⟩

theorem dummyCnt_placed (h : IsDefault c) : Placed c .dummyCnt 2 ⟨.dummyCnt, 9, 2⟩ := by
  obtain ⟨_, _, _, rfl⟩ := h; exact ⟨rfl, rfl, by decide⟩

theorem wrTranCnt_placed (h : IsDefault c) : Placed c .wrTranCnt 2 ⟨.wrTranCnt, 12, 9⟩ := by
  obtain ⟨_, _, _, rfl⟩ := h; exact ⟨rfl, rfl, by decide⟩

theorem transMode_placed (h : IsDefault c) : Placed c .transMode 2 ⟨.transMode, 24, 4⟩ := by
  obtain ⟨_, _, _, rfl⟩ := h; exact ⟨rfl, rfl, by decide⟩

/-- The default mode codes fit their field and are told apart (R75). -/
theorem modeOfCode_modeCode (h : IsDefault c) (m : Mode) : modeOfCode c.modes (modeCode c.modes m % 2 ^ 4) = some m := by
  obtain ⟨_, _, _, rfl⟩ := h
  cases m <;> rfl

/-! ### The Register Block of a transaction, field by field -/

variable (d : Descriptor)

theorem transactBlock_transMode (h : IsDefault c) :
    fieldGet c (transactBlock c d) .transMode = modeCode c.modes d.mode % 2 ^ 4 := by
  obtain ⟨hi, hb, hb32⟩ := transMode_placed h
  exact fieldGet_fieldSet_same _ _ hi hb hb32

variable {d}

theorem transactBlock_wrTranCnt (h : IsDefault c) {n : Nat} (hn : d.wrCnt = some n) :
    fieldGet c (transactBlock c d) .wrTranCnt = n % 2 ^ 9 := by
  obtain ⟨hi, hb, hb32⟩ := wrTranCnt_placed h
  obtain ⟨him, hbm, _⟩ := transMode_placed h
  unfold transactBlock
  simp only [hn]
  rw [fieldGet_fieldSet_apart _ _ him hbm hi hb hb32 (.inl (by decide))]
  exact fieldGet_fieldSet_same _ _ hi hb hb32

theorem transactBlock_dummyCnt (h : IsDefault c) {n : Nat} (hn : d.dmCnt = some n) :
    fieldGet c (transactBlock c d) .dummyCnt = n % 2 ^ 2 := by
  obtain ⟨hi, hb, hb32⟩ := dummyCnt_placed h
  obtain ⟨him, hbm, _⟩ := transMode_placed h
  obtain ⟨hiw, hbw, _⟩ := wrTranCnt_placed h
  unfold transactBlock
  simp only [hn]
  rw [fieldGet_fieldSet_apart _ _ him hbm hi hb hb32 (.inl (by decide)),
    fieldGet_setCount_apart _ _ hiw hbw hi hb hb32 (.inl (by decide))]
  exact fieldGet_fieldSet_same _ _ hi hb hb32

theorem transactBlock_rdTranCnt (h : IsDefault c) {n : Nat} (hn : d.rdCnt = some n) :
    fieldGet c (transactBlock c d) .rdTranCnt = n % 2 ^ 9 := by
  obtain ⟨hi, hb, hb32⟩ := rdTranCnt_placed h
  obtain ⟨him, hbm, _⟩ := transMode_placed h
  obtain ⟨hiw, hbw, _⟩ := wrTranCnt_placed h
  obtain ⟨hid, hbd, _⟩ := dummyCnt_placed h
  unfold transactBlock
  simp only [hn]
  rw [fieldGet_fieldSet_apart _ _ him hbm hi hb hb32 (.inl (by decide)),
    fieldGet_setCount_apart _ _ hiw hbw hi hb hb32 (.inl (by decide)),
    fieldGet_setCount_apart _ _ hid hbd hi hb hb32 (.inl (by decide))]
  exact fieldGet_fieldSet_same _ _ hi hb hb32

/-- A transaction leaves the Control word at its default, which is zero (R87). -/
theorem transactBlock_control (h : IsDefault c) {f : Field} {b : FieldBits} (hf : Placed c f 0 b) :
    fieldGet c (transactBlock c d) f = 0 := by
  obtain ⟨hir, hbr, _⟩ := rdTranCnt_placed h
  obtain ⟨him, hbm, _⟩ := transMode_placed h
  obtain ⟨hiw, hbw, _⟩ := wrTranCnt_placed h
  obtain ⟨hid, hbd, _⟩ := dummyCnt_placed h
  have hdefault : wordGet (defaultsBlock c) 0 = 0#32 := by
    obtain ⟨_, _, _, rfl⟩ := h
    rfl
  rw [fieldGet_placed _ hf.slot hf.bits]
  unfold transactBlock
  rw [wordGet_fieldSet_ne _ _ him hbm (by decide), wordGet_setCount_ne _ _ hiw hbw (by decide),
    wordGet_setCount_ne _ _ hid hbd (by decide), wordGet_setCount_ne _ _ hir hbr (by decide), hdefault]
  simp [bitsGet]

/-- So it sets no reset bit (R66). -/
theorem transactBlock_no_reset (h : IsDefault c) : resetBitSet c (transactBlock c d) = false := by
  obtain ⟨hspi, hrx, htx⟩ : Placed c .spiRst 0 ⟨.spiRst, 0, 1⟩ ∧ Placed c .rxFifoRst 0 ⟨.rxFifoRst, 1, 1⟩ ∧
      Placed c .txFifoRst 0 ⟨.txFifoRst, 2, 1⟩ := by
    obtain ⟨_, _, _, rfl⟩ := h
    exact ⟨⟨rfl, rfl, by decide⟩, ⟨rfl, rfl, by decide⟩, ⟨rfl, rfl, by decide⟩⟩
  unfold resetBitSet
  rw [transactBlock_control h hspi, transactBlock_control h hrx, transactBlock_control h htx]
  rfl

/-! ### The frame on the bus, mode by mode (R66) -/

variable (w : List Byte)

theorem bridgeFrame_writeOnly (h : IsDefault c) {k : Nat} (hmode : d.mode = .writeOnly) (hwr : d.wrCnt = some k)
    (hk : k < 2 ^ 9) : bridgeFrame c (transactBlock c d) w = some (w.take (k + 1), 0) := by
  unfold bridgeFrame
  rw [transactBlock_transMode d h, modeOfCode_modeCode h, hmode, transactBlock_wrTranCnt h hwr, Nat.mod_eq_of_lt hk]

theorem bridgeFrame_writeThenRead (h : IsDefault c) {k m : Nat} (hmode : d.mode = .writeThenRead) (hwr : d.wrCnt = some k)
    (hrd : d.rdCnt = some m) (hk : k < 2 ^ 9) (hm : m < 2 ^ 9) :
    bridgeFrame c (transactBlock c d) w = some (w.take (k + 1), m + 1) := by
  unfold bridgeFrame
  rw [transactBlock_transMode d h, modeOfCode_modeCode h, hmode, transactBlock_wrTranCnt h hwr,
    transactBlock_rdTranCnt h hrd, Nat.mod_eq_of_lt hk, Nat.mod_eq_of_lt hm]

theorem bridgeFrame_writeDummyRead (h : IsDefault c) {k m j : Nat} (hmode : d.mode = .writeDummyRead)
    (hwr : d.wrCnt = some k) (hrd : d.rdCnt = some m) (hdm : d.dmCnt = some j) (hk : k < 2 ^ 9) (hm : m < 2 ^ 9) (hj : j < 2 ^ 2) :
    bridgeFrame c (transactBlock c d) w = some (w.take (k + 1) ++ List.replicate (j + 1) 0xFF#8, m + 1) := by
  unfold bridgeFrame
  rw [transactBlock_transMode d h, modeOfCode_modeCode h, hmode, transactBlock_wrTranCnt h hwr,
    transactBlock_rdTranCnt h hrd, transactBlock_dummyCnt h hdm, Nat.mod_eq_of_lt hk, Nat.mod_eq_of_lt hm,
    Nat.mod_eq_of_lt hj]

/-! ### The frames of the Flash Controller on the bus (R80) -/

/-- Under the configuration the bridge drives `out` for the transaction `f` and reads `n` bytes. -/
def DrivesFrame (c : Config) (f : Frame) (out : List Byte) (n : Nat) : Prop :=
  bridgeFrame c (transactBlock c (describe f.wbytes.length f.rdLen f.dummy)) (padded f.wbytes) = some (out, n)

/-- A write string of at most 512 bytes that nothing is read after is driven without its padding. -/
theorem drivesFrame_write (h : IsDefault c) {w : List Byte} (hw : w ≠ []) (hlen : w.length ≤ 512) :
    DrivesFrame c ⟨w, 0, 0⟩ w 0 := by
  have hpos : 0 < w.length := List.length_pos_of_ne_nil hw
  refine (bridgeFrame_writeOnly (d := describe w.length 0 0) (k := w.length - 1) _ h rfl rfl (by omega)).trans ?_
  rw [Nat.sub_add_cancel hpos, padded, List.take_left]

theorem drivesFrame_rdid (h : IsDefault c) : DrivesFrame c rdidFrame [opReadId] 3 :=
  bridgeFrame_writeThenRead (d := describe 1 3 0) (k := 0) (m := 2) _ h rfl rfl rfl (by decide) (by decide)

theorem drivesFrame_rdsr (h : IsDefault c) : DrivesFrame c rdsrFrame [opRdsr] 1 :=
  bridgeFrame_writeThenRead (d := describe 1 1 0) (k := 0) (m := 0) _ h rfl rfl rfl (by decide) (by decide)

/-- RDUID's four dummy bytes: three of padding and one of the dummy phase (R110, R122). -/
theorem drivesFrame_rduid (h : IsDefault c) :
    DrivesFrame c rduidFrame [opReadUid, 0xFF#8, 0xFF#8, 0xFF#8, 0xFF#8] 16 :=
  bridgeFrame_writeDummyRead (d := describe 1 16 4) (k := 3) (m := 15) (j := 0) _ h rfl rfl rfl rfl (by decide) (by decide)
    (by decide)

theorem drivesFrame_fastRead (h : IsDefault c) (a : Nat) {n : Nat} (hpos : 1 ≤ n) (hn : n ≤ 512) :
    DrivesFrame c (fastReadFrame a n) (opFastRead :: (be24 a ++ [0xFF#8])) n := by
  have hdescribe : describe 4 n 1 =
      { Descriptor.blank with
        wrLen := 4, rdLen := n, dummy := 1, mode := .writeDummyRead, rdCnt := some (n - 1), dmCnt := some 0,
        wrCnt := some 3 } := by
    have hne : n ≠ 0 := by omega
    simp [describe, hne, paddingOf, Descriptor.blank]
  have hframe : DrivesFrame c (fastReadFrame a n) _ (n - 1 + 1) :=
    bridgeFrame_writeDummyRead (k := 3) (j := 0) _ h (congrArg _ hdescribe) (congrArg _ hdescribe) (congrArg _ hdescribe)
      (congrArg _ hdescribe) (by decide) (by omega) (by decide)
  rw [Nat.sub_add_cancel hpos] at hframe
  exact hframe

/-- A transaction that reads up to 512 bytes expects them all back (R76, R113). -/
theorem expectedBytes_transactBlock (h : IsDefault c) (wrLen : Nat) {n : Nat} (dummy : Nat) (hpos : 1 ≤ n) (hn : n ≤ 512) :
    expectedBytes c (transactBlock c (describe wrLen n dummy)) = n := by
  have hcount : (describe wrLen n dummy).rdCnt = some (n - 1) := by
    unfold describe
    simp only
    split_ifs
    · omega
    · rfl
    · rfl
    · rfl
  rw [expectedBytes, transactBlock_rdTranCnt h hcount]
  omega

/-! ### SET_REGISTER and the two requests at the reference environment (R65 to R67) -/

variable (r : RefEnv)

theorem refWrite_setPacket (h : IsDefault c) {f : Frame} {out : List Byte} {n : Nat} (hlong : frameTooLong f = false)
    (hdrives : DrivesFrame c f out n) :
    refWrite c (setPacket c f) r =
      { r with
        image := transactBlock c (describe f.wbytes.length f.rdLen f.dummy)
        rdbuf := (flashFrame out n r.flash).1
        flash := (flashFrame out n r.flash).2 } := by
  have hlen : (framePayload c f).length < payloadLimit := by
    have hshort : ¬payloadLimit ≤ blockBytes + (f.wbytes.length + paddingOf f.wbytes.length) := by
      simpa [frameTooLong] using hlong
    simp only [framePayload, padded, List.length_append, serialize_length, List.length_replicate]
    exact Nat.not_le.1 hshort
  have hdecode : decodePacket (setPacket c f) = .ok (cmdSetRegister, framePayload c f) :=
    Sequencer.decodePacket_encodePacket _ hlen
  have hblock : blockOfBytes ((framePayload c f).take blockBytes) =
      transactBlock c (describe f.wbytes.length f.rdLen f.dummy) := by
    rw [framePayload, List.take_left' (serialize_length _), blockOfBytes_serialize]
  have hrest : (framePayload c f).drop blockBytes = padded f.wbytes := List.drop_left' (serialize_length _)
  have hwhole : ¬(framePayload c f).length < blockBytes := by simp [framePayload]
  unfold refWrite
  rw [hdecode]
  simp only [if_true, bridgeSet, hwhole, if_false, hblock, transactBlock_no_reset h, hrest, Bool.false_eq_true]
  rw [show bridgeFrame _ _ _ = _ from hdrives]

theorem refWrite_readData (c : Config) : refWrite c readDataPacket r = { r with owed := .data } := by
  unfold refWrite
  rw [show decodePacket readDataPacket = _ from Sequencer.decodePacket_encodePacket _ (by decide)]
  rfl

theorem refWrite_readRegister (c : Config) : refWrite c readRegisterPacket r = { r with owed := .block } := by
  unfold refWrite
  rw [show decodePacket readRegisterPacket = _ from Sequencer.decodePacket_encodePacket _ (by decide)]
  rfl

end Sys2Proof.Proofs.DefaultBridge
end

section
/-! Whole transactions over the reference environment (20_memory.md R65 to R68, 42_spi_transaction.md R104): the three or five
transport calls, what they leave as it was, and the one frame that the flash meets. -/

namespace Sys2Proof.Proofs.ReferenceRuns

open Sys2Proof.Machine Sys2Proof.Safety Sys2Proof.Proofs.RegisterBlock Sys2Proof.Proofs.Steps Sys2Proof.Proofs.Sequencer
  Sys2Proof.Proofs.Acceptance Sys2Proof.Proofs.FlashFrames Sys2Proof.Proofs.DefaultBridge

/-! ### Runs from line to line -/

theorem runSteps_add {m : Nat} (n : Nat) {s u : State} (h : runSteps m s = .next u) :
    runSteps (m + n) s = runSteps n u := by
  induction m generalizing s with
  | zero => cases h; rw [Nat.zero_add]
  | succ m ih =>
    rw [Nat.add_right_comm, runSteps]
    rw [runSteps] at h
    cases hstep : step s with
    | next t => rw [hstep] at h; exact ih h
    | fault r => rw [hstep] at h; cases h
    | refused r => rw [hstep] at h; cases h

theorem step_no_input {s : State} (hport : s.port = []) : step s = runFetched (fetchLine (proceed s)) := by
  rw [step, fetch_no_input s hport, fetchSeq]

theorem proceed_of_atLine {s : State} (h : atLine s.seq = true) : proceed s = s := by
  rcases proceed_cases s with ⟨hq, _⟩ | ⟨_, _, _, hq, _⟩ | ⟨_, hq, _⟩ | ⟨_, hq, _⟩ | ⟨_, e⟩
  case inr.inr.inr.inr => exact e
  all_goals rw [hq] at h; cases h

/-- With nothing presented, a block behind an event and one at the line that follows run alike. -/
theorem runSteps_proceed {s : State} (hport : s.port = []) (n : Nat) :
    runSteps (n + 1) (proceed s) = runSteps (n + 1) s := by
  have hstep : step (proceed s) = step s := by
    rw [step_no_input hport, step_no_input ((proceed_port s).trans hport), proceed_of_atLine (proceed_at_line s)]
  rw [runSteps, runSteps, hstep]

/-- With nothing presented, `n` steps from `s` and the computation behind the last of them lead to the line `v`. -/
def LeadsTo (n : Nat) (s v : State) : Prop := ∃ u, runSteps n s = .next u ∧ u.port = [] ∧ proceed u = v

theorem LeadsTo.runSteps {m : Nat} {s v : State} (h : LeadsTo m s v) (n : Nat) :
    runSteps (m + (n + 1)) s = runSteps (n + 1) v := by
  obtain ⟨u, hrun, hport, rfl⟩ := h
  rw [runSteps_add _ hrun, runSteps_proceed hport]

theorem LeadsTo.trans {m n : Nat} {s v w : State} (h : LeadsTo m s v) (h' : LeadsTo n v w) : LeadsTo (m + n) s w := by
  cases n with
  | zero =>
    obtain ⟨u, hrun, hport, rfl⟩ := h
    obtain ⟨_, hv, _, rfl⟩ := h'
    cases hv
    exact ⟨u, hrun, hport, (proceed_of_atLine (proceed_at_line u)).symm⟩
  | succ n =>
    obtain ⟨u, hrun, hw⟩ := h'
    exact ⟨u, (h.runSteps n).trans hrun, hw⟩

/-- The last step of an operation, from the line of its emission. -/
theorem LeadsTo.emits {n : Nat} {s v : State} {r : Result} (h : LeadsTo n s v) (hport : v.port = [])
    (hq : v.seq = .emit r) : Safety.runSteps (n + 1) s = .next (emitStep r v) := by
  have hstep : step v = .next (emitStep r v) := by
    rw [step_no_input hport, proceed_of_atLine (by rw [hq]; rfl), fetchLine, hq]
    rfl
  rw [h.runSteps 0, Safety.runSteps, hstep]
  rfl

/-! ### What a transaction leaves as it was -/

/-- From `s` to `t` the block makes `n` transport calls, and keeps its operation and what stands at the two ports. -/
structure SameOperation (n : Nat) (s t : State) : Prop where
  cfg : t.cfg = s.cfg
  port : t.port = s.port
  session : t.session = s.session
  kind : t.env.kind = s.env.kind
  req : t.req = s.req
  calls : ∃ new, t.events = new ++ s.events ∧ new.length = n

/-- The same, and it keeps the write-enable scope: it is inside one transaction. -/
structure Kept (n : Nat) (s t : State) : Prop extends SameOperation n s t where
  scope : t.scope = s.scope
  pendingErr : t.pendingErr = s.pendingErr

theorem SameOperation.trans {m n : Nat} {s t u : State} (h : SameOperation m s t) (h' : SameOperation n t u) :
    SameOperation (m + n) s u where
  cfg := h'.cfg.trans h.cfg
  port := h'.port.trans h.port
  session := h'.session.trans h.session
  kind := h'.kind.trans h.kind
  req := h'.req.trans h.req
  calls := by
    obtain ⟨new, hnew, rfl⟩ := h.calls
    obtain ⟨new', hnew', rfl⟩ := h'.calls
    exact ⟨new' ++ new, by rw [hnew', hnew, List.append_assoc], by rw [List.length_append, Nat.add_comm]⟩

theorem Kept.trans {m n : Nat} {s t u : State} (h : Kept m s t) (h' : Kept n t u) : Kept (m + n) s u where
  toSameOperation := h.toSameOperation.trans h'.toSameOperation
  scope := h'.scope.trans h.scope
  pendingErr := h'.pendingErr.trans h.pendingErr

theorem SameOperation.behind {n : Nat} {s t : State} (h : SameOperation n s t) (hs : ReferenceBehind s) :
    ReferenceBehind t where
  cfg := h.cfg ▸ hs.cfg
  port := h.port.trans hs.port
  session := h.session.trans hs.session
  kind := h.kind.trans hs.kind

/-! ### The calls over the reference environment -/

variable {s : State}

theorem isDefault_of_behind (h : ReferenceBehind s) : IsDefault s.cfg := h.cfg

/-- Every write is taken whole and reaches the bridge (R65). -/
theorem answerWrite_reference (h : ReferenceBehind s) (raw : List Byte) :
    answerWrite raw s = (.count raw.length, { s.env with ref := refWrite s.cfg raw s.env.ref }) := by
  have hopen : s.session ≠ .closed := by rw [h.session]; decide
  have hunbounded : beyondMaxPacket s.cfg raw.length = false := by
    obtain ⟨_, _, _, hcfg⟩ := h.cfg
    rw [hcfg]
    rfl
  rw [answerWrite, if_neg hopen, hunbounded, h.kind]
  rfl

theorem answerRead_reference (h : ReferenceBehind s) (m : Nat) :
    answerRead m s =
      (.bytes (refRead s.cfg m s.env.ref).1, { s.env with ref := (refRead s.cfg m s.env.ref).2 }) := by
  have hopen : s.session ≠ .closed := by rw [h.session]; decide
  rw [answerRead, if_neg hopen, h.kind]

theorem runSteps_one {t : State} (h : step s = .next t) : runSteps 1 s = .next t := by
  rw [runSteps, h]
  rfl

theorem sendPacket_kept (s : State) (c : Word) (p : List Byte) (next next' : Line) :
    Kept 1 s (goLine next' (sendPacket c p next s)) := by
  cases next' <;> exact ⟨⟨rfl, rfl, rfl, Parameters.answerWrite_kind s _, rfl, [_], rfl, rfl⟩, rfl, rfl⟩

theorem recvPacket_kept (s : State) (n : Nat) (behind : ReadAnswer → Seq) : Kept 1 s (recvPacket n behind s) :=
  ⟨⟨rfl, rfl, rfl, Parameters.answerRead_kind s _, rfl, [_], rfl, rfl⟩, rfl, rfl⟩

/-- At a line that holds a wire command the packet is written, and the line behind it stands. -/
theorem packet_leadsTo (h : ReferenceBehind s) {c : Word} {next : Line} {i : Instr}
    (hq : s.seq = .packet (encodePacket c [])) (hi : decodeWire (encodePacket c []) = .ok i)
    (hexec : ∀ t, exec i t = .next (sendPacket c [] next t)) :
    LeadsTo 1 s (goLine next (sendPacket c [] next s)) := by
  have htaken : takesPacket (encodePacket c []) s := congrArg Prod.fst (answerWrite_reference h _)
  have hstep : step s = .next (sendPacket c [] next s) := by
    rw [step_no_input h.port, proceed_of_atLine (by rw [hq]; rfl), runFetched_instr_line (.inl ⟨_, hq, rfl⟩) hi, hexec]
  exact ⟨_, runSteps_one hstep, h.port, proceed_sendPacket_taken next htaken⟩

/-! ### The READ_REGISTER exchange (R103, R114, R67) -/

/-- The bridge's answer carries the sentinel in its Status word. -/
theorem statusWord_bridgeReadBack {c : Config} (h : IsDefault c) (b : RegBlock) :
    statusWord c (bridgeReadBack c b) = c.sentinel := by
  have hslot : regSlot c .status = some 6 := by
    obtain ⟨_, _, _, rfl⟩ := h
    rfl
  simp only [statusWord, bridgeReadBack, hslot]
  exact slotGet_slotSet_same _ _ _

/-- A block with the sentinel ends the transaction. -/
theorem afterBlock_of_sentinel (u : State) {back : RegBlock} (h : statusWord u.cfg back = u.cfg.sentinel) :
    afterBlock (blockAnswer back) u = returnTransact u.data u := by
  have hdecode : decodePacket (encodePacket cmdReadRegister (serialize back)) = .ok (cmdReadRegister, serialize back) :=
    decodePacket_encodePacket _ (by rw [serialize_length]; decide)
  have hdeserialize : deserialize (serialize back) = .ok back := by
    rw [deserialize_of_length (serialize_length back), blockOfBytes_serialize]
  simp only [afterBlock, blockAnswer, checkRead, hdecode, hdeserialize]
  exact if_pos (by simpa [statusOk] using h)

/-- The owed block is read whole. -/
theorem answerRead_owed_block (h : ReferenceBehind s) (howed : s.env.ref.owed = .block) :
    answerRead 48 s = (blockAnswer (bridgeReadBack s.cfg s.env.ref.image),
      { s.env with ref := { s.env.ref with owed := .nothing } }) := by
  have hread : refRead s.cfg 48 s.env.ref =
      (encodePacket cmdReadRegister (serialize (bridgeReadBack s.cfg s.env.ref.image)),
        { s.env.ref with owed := .nothing }) := by
    unfold refRead
    rw [howed]
    exact congrArg (·, _) (List.take_of_length_le (by simp))
  rw [answerRead_reference h, hread]
  rfl

/-- From the line of its status read-back a transaction returns its data. -/
theorem readRegister_returns (h : ReferenceBehind s) (hq : s.seq = readRegisterLine) :
    ∃ u, runSteps 2 s = .next u ∧ proceed u = returnTransact s.data u ∧ Kept 2 s u ∧
      u.env.ref.flash = s.env.ref.flash := by
  obtain ⟨t, ht⟩ : ∃ t, t = goLine .recvBlock (sendPacket cmdReadRegister [] .recvBlock s) := ⟨_, rfl⟩
  have hlead : LeadsTo 1 s t := ht ▸ packet_leadsTo h hq decodeWire_readRegister fun _ => rfl
  have hkept : Kept 1 s t := ht ▸ sendPacket_kept s _ _ _ _
  have hq' : t.seq = .recvBlock := by rw [ht]; rfl
  have hdata : t.data = s.data := by rw [ht]; rfl
  have href : t.env.ref = { s.env.ref with owed := .block } := by
    rw [ht, goLine_env, sendPacket_env, answerWrite_reference h]
    exact refWrite_readRegister s.env.ref s.cfg
  have hbehind : ReferenceBehind t := hkept.behind h
  have hstep : step t = .next (recvBlockStep t) := by
    rw [step_no_input hbehind.port, proceed_of_atLine (by rw [hq']; rfl), fetchLine, hq']
    rfl
  have hanswer := answerRead_owed_block hbehind (by rw [href])
  refine ⟨recvBlockStep t, ?_, ?_, hkept.trans (recvPacket_kept t _ _), ?_⟩
  · rw [hlead.runSteps 0, runSteps_one hstep]
  · have hproceed : proceed (recvBlockStep t) = afterBlock (answerRead 48 t).1 (recvBlockStep t) := rfl
    rw [hproceed, hanswer, ← hdata]
    exact afterBlock_of_sentinel (recvBlockStep t) (statusWord_bridgeReadBack (isDefault_of_behind hbehind) _)
  · have henv : (recvBlockStep t).env = (answerRead 48 t).2 := rfl
    rw [henv, hanswer, href]

/-! ### The READ_DATA exchange (R102, R113, R67) -/

/-- The owed read buffer is read whole where it has the length that is asked for. -/
theorem answerRead_owed_data (h : ReferenceBehind s) (howed : s.env.ref.owed = .data) :
    answerRead (8 + s.env.ref.rdbuf.length) s = (dataAnswer s.env.ref.rdbuf,
      { s.env with ref := { s.env.ref with rdbuf := [], owed := .nothing } }) := by
  have hread : refRead s.cfg (8 + s.env.ref.rdbuf.length) s.env.ref =
      (encodePacket cmdReadData s.env.ref.rdbuf, { s.env.ref with rdbuf := [], owed := .nothing }) := by
    unfold refRead
    rw [howed]
    exact congrArg (·, _) (List.take_of_length_le (by simp))
  rw [answerRead_reference h, hread]
  rfl

/-- An answer of the expected length becomes the transaction's data. -/
theorem afterData_of_length (u : State) {d : List Byte} (hlen : d.length = expectedBytes u.cfg u.rb)
    (hd : d.length < payloadLimit) : afterData (dataAnswer d) u = { u with data := d, seq := readRegisterLine } := by
  simp only [afterData, dataAnswer, checkRead, decodePacket_encodePacket cmdReadData hd]
  exact if_neg (not_not.2 hlen)

/-- From the line of its READ_DATA request a transaction takes the bridge's read buffer. -/
theorem readData_leadsTo (h : ReferenceBehind s) (hq : s.seq = readDataLine)
    (hlen : s.env.ref.rdbuf.length = expectedBytes s.cfg s.rb) (hshort : s.env.ref.rdbuf.length < payloadLimit) :
    ∃ v, LeadsTo 2 s v ∧ Kept 2 s v ∧ v.seq = readRegisterLine ∧ v.data = s.env.ref.rdbuf ∧
      v.env.ref.flash = s.env.ref.flash := by
  obtain ⟨t, ht⟩ : ∃ t, t = goLine .recvData (sendPacket cmdReadData [] .recvData s) := ⟨_, rfl⟩
  have hlead : LeadsTo 1 s t := ht ▸ packet_leadsTo h hq decodeWire_readData fun _ => rfl
  have hkept : Kept 1 s t := ht ▸ sendPacket_kept s _ _ _ _
  have hq' : t.seq = .recvData := by rw [ht]; rfl
  have href : t.env.ref = { s.env.ref with owed := .data } := by
    rw [ht, goLine_env, sendPacket_env, answerWrite_reference h]
    exact refWrite_readData s.env.ref s.cfg
  have hexpected : expectedBytes t.cfg t.rb = t.env.ref.rdbuf.length := by
    rw [href, hlen, ht, goLine_rb, goLine_cfg]
    rfl
  have hbehind : ReferenceBehind t := hkept.behind h
  have hstep : step t = .next (recvDataStep t) := by
    rw [step_no_input hbehind.port, proceed_of_atLine (by rw [hq']; rfl), fetchLine, hq']
    rfl
  have hanswer := answerRead_owed_data hbehind (by rw [href])
  rw [← hexpected] at hanswer
  have hbuf : t.env.ref.rdbuf = s.env.ref.rdbuf := by rw [href]
  have hproceed : proceed (recvDataStep t) = { recvDataStep t with data := s.env.ref.rdbuf, seq := readRegisterLine } := by
    have hbehindRead : proceed (recvDataStep t) = afterData (answerRead (8 + expectedBytes t.cfg t.rb) t).1 (recvDataStep t) :=
      rfl
    rw [hbehindRead, hanswer, hbuf]
    exact afterData_of_length (recvDataStep t) (hbuf ▸ hexpected.symm) hshort
  have hread : Kept 1 t { recvDataStep t with data := s.env.ref.rdbuf, seq := readRegisterLine } := by
    obtain ⟨⟨hcfg, hport, hsession, hkind, hreq, hcalls⟩, hscope, hpending⟩ := recvPacket_kept t (expectedBytes t.cfg t.rb) .gotData
    exact ⟨⟨hcfg, hport, hsession, hkind, hreq, hcalls⟩, hscope, hpending⟩
  refine ⟨_, hlead.trans ⟨_, runSteps_one hstep, hbehind.port, hproceed⟩, hkept.trans hread, rfl, rfl, ?_⟩
  have henv : (recvDataStep t).env = (answerRead (8 + expectedBytes t.cfg t.rb) t).2 := rfl
  show (recvDataStep t).env.ref.flash = _
  rw [henv, hanswer, href]

/-! ### Whole transactions -/

/-- Behind the SET_REGISTER write the flash has met the transaction's frame, and its answer waits in the read buffer. -/
theorem sendTransact_env_reference (h : ReferenceBehind s) {f : Frame} {out : List Byte} {n : Nat}
    (hlong : frameTooLong f = false) (hdrives : DrivesFrame s.cfg f out n) :
    (sendTransact f s).env = { s.env with
      ref := { s.env.ref with
        image := transactBlock s.cfg (describe f.wbytes.length f.rdLen f.dummy)
        rdbuf := (flashFrame out n s.env.ref.flash).1
        flash := (flashFrame out n s.env.ref.flash).2 } } := by
  rw [sendTransact_eq, answerWrite_reference h, refWrite_setPacket _ (isDefault_of_behind h) hlong hdrives]

theorem proceed_sendTransact_reference (h : ReferenceBehind s) (f : Frame) :
    proceed (sendTransact f s) = goLine (afterSet f) (sendTransact f s) := by
  have hwrote : proceed (sendTransact f s) =
    afterWrite (setPacket s.cfg f).length (answerWrite (setPacket s.cfg f) s).1 (afterSet f) (sendTransact f s) := rfl
  rw [hwrote, answerWrite_reference h, afterWrite_of_taken]

/-- The SET_REGISTER write of a transaction, up to the line of its READ_DATA request or its status read-back. -/
theorem setRegister_leadsTo (h : ReferenceBehind s) {f : Frame} {out : List Byte} {n : Nat} (hq : s.seq = .frame f)
    (hempty : frameEmpty f = false) (hlong : frameTooLong f = false) (hdrives : DrivesFrame s.cfg f out n) :
    ∃ v, LeadsTo 1 s v ∧ Kept 1 s v ∧ v.seq = (if f.rdLen ≠ 0 then readDataLine else readRegisterLine) ∧ v.data = [] ∧
      v.rb = transactBlock s.cfg (describe f.wbytes.length f.rdLen f.dummy) ∧
      v.env.ref.rdbuf = (flashFrame out n s.env.ref.flash).1 ∧ v.env.ref.flash = (flashFrame out n s.env.ref.flash).2 := by
  have hstep : step s = .next (sendTransact f s) := by
    rw [step_no_input h.port, proceed_of_atLine (by rw [hq]; rfl), runFetched_frame s hq, runTransact_of_ok hempty hlong]
  have hkept : Kept 1 s (goLine (afterSet f) (sendTransact f s)) := by
    obtain ⟨⟨hcfg, hport, hsession, hkind, hreq, hcalls⟩, hscope, hpending⟩ := sendPacket_kept { s with
      td := describe f.wbytes.length f.rdLen f.dummy
      rb := transactBlock s.cfg (describe f.wbytes.length f.rdLen f.dummy) } cmdSetRegister
      (serialize (transactBlock s.cfg (describe f.wbytes.length f.rdLen f.dummy)) ++ padded f.wbytes) (afterSet f) (afterSet f)
    exact ⟨⟨hcfg, hport, hsession, hkind, hreq, hcalls⟩, hscope, hpending⟩
  have henv := sendTransact_env_reference h hlong hdrives
  refine ⟨_, ⟨_, runSteps_one hstep, h.port, proceed_sendTransact_reference h f⟩, hkept, ?_, ?_, ?_, ?_, ?_⟩
  · unfold afterSet; split_ifs <;> rfl
  · unfold afterSet; split_ifs <;> rfl
  · rw [goLine_rb]; rfl
  · rw [goLine_env, henv]
  · rw [goLine_env, henv]

/-- A transaction that reads nothing: three calls. -/
theorem write_transaction (h : ReferenceBehind s) {f : Frame} {out : List Byte} {n : Nat} (hq : s.seq = .frame f)
    (hempty : frameEmpty f = false) (hlong : frameTooLong f = false) (hrd : f.rdLen = 0)
    (hdrives : DrivesFrame s.cfg f out n) :
    ∃ u, runSteps 3 s = .next u ∧ proceed u = returnTransact [] u ∧ Kept 3 s u ∧
      u.env.ref.flash = (flashFrame out n s.env.ref.flash).2 := by
  obtain ⟨v, hlead, hkept, hv, hdata, _, _, hflash⟩ := setRegister_leadsTo h hq hempty hlong hdrives
  rw [if_neg (not_not.2 hrd)] at hv
  obtain ⟨u, hrun, hreturn, hkept', hflash'⟩ := readRegister_returns (hkept.behind h) hv
  exact ⟨u, (hlead.runSteps 1).trans hrun, hdata ▸ hreturn, hkept.trans hkept', hflash'.trans hflash⟩

/-- A transaction that reads: five calls, and the flash's answer is returned. -/
theorem read_transaction (h : ReferenceBehind s) {f : Frame} {out : List Byte} (hq : s.seq = .frame f)
    (hlong : frameTooLong f = false) (hpos : 1 ≤ f.rdLen) (hrd : f.rdLen ≤ 512) (hdrives : DrivesFrame s.cfg f out f.rdLen) :
    ∃ u, runSteps 5 s = .next u ∧ proceed u = returnTransact (flashFrame out f.rdLen s.env.ref.flash).1 u ∧ Kept 5 s u ∧
      u.env.ref.flash = (flashFrame out f.rdLen s.env.ref.flash).2 := by
  have hne : f.rdLen ≠ 0 := by omega
  have hempty : frameEmpty f = false := by rw [frameEmpty, beq_false_of_ne hne, Bool.and_false]
  obtain ⟨v, hlead, hkept, hv, _, hrb, hbuf, hflash⟩ := setRegister_leadsTo h hq hempty hlong hdrives
  rw [if_pos hne] at hv
  have hlen : v.env.ref.rdbuf.length = f.rdLen := by rw [hbuf, flashFrame_answer_length]
  have hexpected : expectedBytes v.cfg v.rb = f.rdLen := by
    rw [hkept.cfg, hrb]
    exact expectedBytes_transactBlock (isDefault_of_behind h) _ _ hpos hrd
  obtain ⟨w, hlead', hkept', hw, hdata, hflash'⟩ := readData_leadsTo (hkept.behind h) hv (hlen.trans hexpected.symm)
    (by rw [hlen]; exact lt_of_le_of_lt hrd (by decide))
  obtain ⟨u, hrun, hreturn, hkept'', hflash''⟩ := readRegister_returns ((hkept.trans hkept').behind h) hw
  refine ⟨u, ((hlead.trans hlead').runSteps 1).trans hrun, ?_, (hkept.trans hkept').trans hkept'', ?_⟩
  · rw [hreturn, hdata, hbuf]
  · rw [hflash'', hflash', hflash]

end Sys2Proof.Proofs.ReferenceRuns
end

section
/-! Single transactions of the Flash Controller over the reference flash with the default configuration (20_memory.md R66 to
R68). -/

namespace Sys2Proof.Proofs.FlashTransactions

open Sys2Proof.Machine Sys2Proof.Safety Sys2Proof.Proofs.Sequencer Sys2Proof.Proofs.FlashFrames
  Sys2Proof.Proofs.DrivenFrames Sys2Proof.Proofs.DefaultBridge Sys2Proof.Proofs.ReferenceRuns

/-! ### Transactions that store or set the latch -/

variable {s : State}

theorem frameTooLong_of_length {w : List Byte} (rdLen dummy : Nat) (h : w.length ≤ 512) :
    frameTooLong ⟨w, rdLen, dummy⟩ = false := by
  have hpadding : paddingOf w.length < 4 := Nat.mod_lt _ (by decide)
  rw [Bool.eq_false_iff, Ne, Acceptance.frameTooLong_iff]
  dsimp only
  omega

/-- A write string with nothing to read is the flash's frame. -/
theorem runTransact_write_flash (h : ReferenceBehind s) {w : List Byte} (hw : w ≠ []) (hlen : w.length ≤ 512) :
    (runTransact ⟨w, 0, 0⟩ s).env.ref.flash = (flashFrame w 0 s.env.ref.flash).2 := by
  have hempty : frameEmpty ⟨w, 0, 0⟩ = false := Acceptance.frameEmpty_of_work 0 (.inl hw)
  have hlong := frameTooLong_of_length 0 0 hlen
  rw [runTransact_of_ok hempty hlong,
    sendTransact_env_reference h hlong (drivesFrame_write (isDefault_of_behind h) hw hlen)]

/-- Behind its SET_REGISTER write the status read-back stands. -/
theorem runTransact_write_line (h : ReferenceBehind s) {w : List Byte} (hw : w ≠ []) (hlen : w.length ≤ 512) :
    (proceed (runTransact ⟨w, 0, 0⟩ s)).seq = .packet readRegisterPacket := by
  have hempty : frameEmpty ⟨w, 0, 0⟩ = false := Acceptance.frameEmpty_of_work 0 (.inl hw)
  rw [runTransact_of_ok hempty (frameTooLong_of_length 0 0 hlen), proceed_sendTransact_reference h]
  rfl

theorem frameAddr_be24 (op : Byte) {a : Nat} (rest : List Byte) (ha : a < 2 ^ 24) :
    frameAddr (op :: (be24 a ++ rest)) = a :=
  fromBe24_be24_aux a ha

/-- BLOCK_ERASE_64KB on an idle, write-enabled flash. -/
theorem flashFrame_erase_at (n : Nat) {f : Flash} {a : Nat} (hidle : f.busy = 0) (hwel : f.wel = true) (ha : a < 2 ^ 24) :
    (flashFrame (opBlockErase :: be24 a) n f).2 = { mem := memErase64k f.mem a, wel := false, busy := 2 } := by
  have haddr : frameAddr (opBlockErase :: be24 a) = a := frameAddr_be24 opBlockErase [] ha
  rw [flashFrame_blockErase _ n f hidle hwel, haddr]
  rfl

/-- PAGE_PROGRAM on an idle, write-enabled flash. -/
theorem flashFrame_program_at (n : Nat) {f : Flash} {a : Nat} (p : List Byte) (hidle : f.busy = 0) (hwel : f.wel = true)
    (ha : a < 2 ^ 24) :
    (flashFrame (opPageProgram :: (be24 a ++ p)) n f).2 = { mem := memProgram f.mem a 0 p, wel := false, busy := 1 } := by
  rw [flashFrame_pageProgram _ n f hidle hwel, frameAddr_be24 opPageProgram p ha]
  rfl

/-- The bytes of the 64 KB block that holds `a` are erased, every other byte stays (R68). -/
theorem memRead_memErase64k_block (m : Memory) {a x : Nat} (hx : x < 2 ^ 24) :
    memRead (memErase64k m a) x = if x / 65536 = a / 65536 then 0xFF#8 else memRead m x := by
  have hblock : (eraseBase a ≤ x % flashSize ∧ x % flashSize < eraseBase a + 65536) ↔ x / 65536 = a / 65536 := by
    unfold eraseBase flashSize
    omega
  rw [memRead_memErase64k]
  exact if_congr hblock rfl rfl

/-- Outside the addresses of its data a page program keeps every byte. -/
theorem memRead_memProgram_untouched {m : Memory} {a x : Nat} {p : List Byte} (hm : m.wf = true) (ha : a < 2 ^ 24)
    (hx : x < 2 ^ 24) (h : ∀ j, j < p.length → x ≠ pageAddr a j) : memRead (memProgram m a 0 p) x = memRead m x := by
  refine memRead_memProgram_outside p m 0 hm fun i hi => ?_
  rw [Nat.mod_eq_of_lt (show x < flashSize from hx), Nat.zero_add, Nat.mod_eq_of_lt (pageAddr_lt i ha)]
  exact h i hi

theorem memRead_memProgram_data {m : Memory} {a j : Nat} {p : List Byte} (hm : m.wf = true) (ha : a < 2 ^ 24)
    (hp : p.length ≤ 256) (hj : j < p.length) :
    memRead (memProgram m a 0 p) (pageAddr a j) = memRead m (pageAddr a j) &&& p.getD j 0 := by
  have h := memRead_memProgram_at ha p m 0 j hm (by omega) hj
  rwa [Nat.zero_add] at h

/-! ### Transactions that read -/

/-- The RDSR byte is the WIP bit and twice the WEL bit (R68). -/
theorem flashStatus_toNat (f : Flash) :
    (flashStatus f).toNat = (if f.busy = 0 then 0 else 1) + (if f.wel then 2 else 0) := by
  unfold flashStatus
  by_cases hbusy : f.busy = 0
  · cases f.wel <;> simp [hbusy]
  · cases f.wel <;> simp [hbusy, Nat.pos_of_ne_zero hbusy]

theorem returnsFromFlash (h : ReferenceBehind s) {f : Frame} {out : List Byte} (hlong : frameTooLong f = false)
    (hpos : 1 ≤ f.rdLen) (hrd : f.rdLen ≤ 512) (hdrives : DrivesFrame s.cfg f out f.rdLen) :
    ReturnsFromFlash s f (flashFrame out f.rdLen s.env.ref.flash).1 (flashFrame out f.rdLen s.env.ref.flash).2 := by
  have hline : ReferenceBehind { s with seq := .frame f } := ⟨h.cfg, h.port, h.session, h.kind⟩
  obtain ⟨u, hrun, hreturn, _, hflash⟩ := read_transaction hline rfl hlong hpos hrd hdrives
  exact ⟨u, hrun, hreturn, hflash⟩

theorem returnsFromFlash_of_frame (h : ReferenceBehind s) {f : Frame} {out d : List Byte} {after : Flash}
    (hlong : frameTooLong f = false) (hpos : 1 ≤ f.rdLen) (hrd : f.rdLen ≤ 512)
    (hdrives : DrivesFrame s.cfg f out f.rdLen) (hflash : flashFrame out f.rdLen s.env.ref.flash = (d, after)) :
    ReturnsFromFlash s f d after := by
  have hreturns := returnsFromFlash h hlong hpos hrd hdrives
  rwa [hflash] at hreturns

variable (h : ReferenceBehind s)
include h

theorem rdid_returns {d : List Byte} {after : Flash} (hflash : flashFrame [opReadId] 3 s.env.ref.flash = (d, after)) :
    ReturnsFromFlash s rdidFrame d after :=
  returnsFromFlash_of_frame h (by decide) (by decide) (by decide) (drivesFrame_rdid (isDefault_of_behind h)) hflash

theorem rduid_returns {d : List Byte} {after : Flash}
    (hflash : flashFrame [opReadUid, 0xFF#8, 0xFF#8, 0xFF#8, 0xFF#8] 16 s.env.ref.flash = (d, after)) :
    ReturnsFromFlash s rduidFrame d after :=
  returnsFromFlash_of_frame h (by decide) (by decide) (by decide) (drivesFrame_rduid (isDefault_of_behind h)) hflash

theorem rdsr_returns {d : List Byte} {after : Flash} (hflash : flashFrame [opRdsr] 1 s.env.ref.flash = (d, after)) :
    ReturnsFromFlash s rdsrFrame d after :=
  returnsFromFlash_of_frame h (by decide) (by decide) (by decide) (drivesFrame_rdsr (isDefault_of_behind h)) hflash

theorem fastRead_returns {a n : Nat} {d : List Byte} {after : Flash} (hpos : 1 ≤ n) (hn : n ≤ 512)
    (hflash : flashFrame (opFastRead :: (be24 a ++ [0xFF#8])) n s.env.ref.flash = (d, after)) :
    ReturnsFromFlash s (fastReadFrame a n) d after :=
  returnsFromFlash_of_frame h (frameTooLong_of_length n 1 (by simp)) hpos hn
    (drivesFrame_fastRead (isDefault_of_behind h) a hpos hn) hflash

end Sys2Proof.Proofs.FlashTransactions

open Sys2Proof Sys2Proof.Machine Sys2Proof.Safety Sys2Proof.Proofs.DrivenFrames Sys2Proof.Proofs.FlashTransactions in
/-- Settles O59: the packet drives the four bytes of the frame, which the flash erases or, not being enabled, ignores. -/
theorem blockEraseInTheFlash : Obligations.BlockEraseInTheFlash := by
  unfold Obligations.BlockEraseInTheFlash
  have hlen : ∀ a, (opBlockErase :: be24 a).length ≤ 512 := fun a => by simp
  refine ⟨fun s a h hwel ha => ⟨_, rfl, runTransact_write_line h.toReferenceBehind (by simp) (hlen a), ?_⟩,
    fun s a h hdisabled => ⟨_, rfl, runTransact_write_line h (by simp) (hlen a),
      runTransact_flash_of_disabled 0 0 (.inl rfl) hdisabled⟩⟩
  have hflash := runTransact_write_flash h.toReferenceBehind (by simp) (hlen a)
  rw [flashFrame_erase_at 0 h.notBusy hwel ha] at hflash
  refine ⟨congrArg Flash.wel hflash, congrArg Flash.busy hflash, fun x hx => ?_⟩
  exact (congrArg (fun f => memRead f.mem x) hflash).trans (memRead_memErase64k_block _ hx)

open Sys2Proof Sys2Proof.Machine Sys2Proof.Safety Sys2Proof.Proofs.DrivenFrames Sys2Proof.Proofs.FlashTransactions in
/-- Settles O60: the packet drives the whole frame, whose data the flash programs inside the page or, not being enabled,
ignores. -/
theorem pageProgramInTheFlash : Obligations.PageProgramInTheFlash := by
  unfold Obligations.PageProgramInTheFlash
  refine ⟨fun s a p h hwel ha hp => ?_,
    fun s a p _ hdisabled => ⟨_, rfl, runTransact_flash_of_disabled 0 0 (.inr rfl) hdisabled⟩⟩
  have hlen : (opPageProgram :: (be24 a ++ p)).length ≤ 512 := by
    rw [List.length_cons, List.length_append, be24_length]
    omega
  have hflash := runTransact_write_flash h.toReferenceBehind (by simp) hlen
  rw [flashFrame_program_at 0 p h.notBusy hwel ha] at hflash
  refine ⟨_, rfl, runTransact_write_line h.toReferenceBehind (by simp) hlen, congrArg Flash.wel hflash,
    congrArg Flash.busy hflash, fun j hj => ?_, fun x hx hout => ?_⟩
  · exact (congrArg (fun f => memRead f.mem (pageAddr a j)) hflash).trans (memRead_memProgram_data h.memWf ha hp hj)
  · exact (congrArg (fun f => memRead f.mem x) hflash).trans (memRead_memProgram_untouched h.memWf ha hx hout)

open Sys2Proof Sys2Proof.Machine Sys2Proof.Safety Sys2Proof.Proofs.FlashFrames Sys2Proof.Proofs.DrivenFrames
  Sys2Proof.Proofs.FlashTransactions in
/-- Settles O57: no other instruction's packet drives an opcode that stores; a transaction that reads returns what the flash
answers to the frame that its packet drives. -/
theorem flashReadsAnswerAndStoreNothing : Obligations.FlashReadsAnswerAndStoreNothing := by
  unfold Obligations.FlashReadsAnswerAndStoreNothing
  refine ⟨fun s t i hexec hset herase hprogram x => ?_, fun s h hidle => ⟨?_, ?_, fun a n ha hpos hn => ?_⟩,
    fun s h hbusy => ⟨?_, ?_, fun a n _ hpos hn => ?_⟩, fun s h => ⟨flashStatus s.env.ref.flash, ?_, ?_⟩,
    fun s h => ⟨⟨_, rfl, ?_⟩, _, rfl, ?_⟩⟩
  · exact congrArg (memRead · x) (exec_mem_of_other hexec hset herase hprogram)
  · exact rdid_returns h (flashFrame_readId [] 3 _ hidle)
  · exact rduid_returns h (flashFrame_readUid _ 16 _ hidle rfl)
  · refine fastRead_returns h hpos hn ?_
    rw [flashFrame_fastRead _ n _ hidle (by simp), frameAddr_be24 opFastRead _ ha]
    rfl
  · exact rdid_returns h (flashFrame_busy [] 3 _ (by decide) hbusy)
  · exact rduid_returns h (flashFrame_busy _ 16 _ (by decide) hbusy)
  · exact fastRead_returns h hpos hn (flashFrame_busy _ n _ (by decide) hbusy)
  · exact flashStatus_toNat _
  · exact rdsr_returns h (flashFrame_rdsr [] 1 _)
  · exact (runTransact_write_flash h (by simp) (by simp)).trans (flashFrame_wren [] 0 _)
  · exact (runTransact_write_flash h (by simp) (by simp)).trans (flashFrame_wrdi [] 0 _)
end

section
/-! The write-enable scope over the reference flash (20_memory.md R68, 43_flash_controller.md R124 to R129): WREN, the body,
the polls until the flash is idle, WRDI; then ERASE_64KB and PROGRAM_PAGE as whole operations. -/

namespace Sys2Proof.Proofs.ReferenceScope

open Sys2Proof.Machine Sys2Proof.Safety Sys2Proof.Proofs.Sequencer Sys2Proof.Proofs.Acceptance
  Sys2Proof.Proofs.FlashRanges Sys2Proof.Proofs.FlashFrames Sys2Proof.Proofs.DefaultBridge Sys2Proof.Proofs.ReferenceRuns
  Sys2Proof.Proofs.FlashTransactions

/-! ### Stages of the scope -/

/-- Over the reference flash `fl` the block stands at the line `q` of the scope position `sc`, with no error pending. -/
structure StandsAt (s : State) (q : Seq) (sc : Scope) (fl : Flash) : Prop where
  behind : ReferenceBehind s
  seq : s.seq = q
  scope : s.scope = sc
  noError : s.pendingErr = none
  flash : s.env.ref.flash = fl

/-- In `n` steps of one transport call each the operation that runs in `s` comes to stand there. -/
def Reaches (n : Nat) (s : State) (q : Seq) (sc : Scope) (fl : Flash) : Prop :=
  ∃ v, LeadsTo n s v ∧ SameOperation n s v ∧ StandsAt v q sc fl

theorem Reaches.trans {m n : Nat} {s : State} {q q' : Seq} {sc sc' : Scope} {fl fl' : Flash} (h : Reaches m s q sc fl)
    (h' : ∀ v, SameOperation m s v → StandsAt v q sc fl → Reaches n v q' sc' fl') : Reaches (m + n) s q' sc' fl' := by
  obtain ⟨v, hlead, hsame, hv⟩ := h
  obtain ⟨w, hlead', hsame', hw⟩ := h' v hsame hv
  exact ⟨w, hlead.trans hlead', hsame.trans hsame', hw⟩

variable {s : State} {fl : Flash}

/-- A write transaction in the scope, up to the line that its return leads to. -/
theorem StandsAt.write {w : List Byte} {sc : Scope} (h : StandsAt s (.frame ⟨w, 0, 0⟩) sc fl) (hw : w ≠ [])
    (hlen : w.length ≤ 512) :
    ∃ u, LeadsTo 3 s (returnTransact [] u) ∧ SameOperation 3 s u ∧ ReferenceBehind u ∧ u.scope = sc ∧ u.pendingErr = none ∧
      u.env.ref.flash = (flashFrame w 0 fl).2 := by
  obtain ⟨u, hrun, hreturn, hkept, hflash⟩ := write_transaction h.behind h.seq (frameEmpty_of_work 0 (.inl hw))
    (frameTooLong_of_length 0 0 hlen) rfl (drivesFrame_write (isDefault_of_behind h.behind) hw hlen)
  have hbehind := hkept.behind h.behind
  exact ⟨u, ⟨u, hrun, hbehind.port, hreturn⟩, hkept.toSameOperation, hbehind, hkept.scope.trans h.scope,
    hkept.pendingErr.trans h.noError, h.flash ▸ hflash⟩

/-- The line that the return of a transaction leads to: nothing outside the sequencer's own fields has changed. -/
theorem reaches_line {n : Nat} {u : State} {q : Seq} {sc : Scope} {pending : Option Err} {b : Byte}
    (hlead : LeadsTo n s { u with seq := q, scope := sc, pendingErr := pending, pollByte := b })
    (hsame : SameOperation n s u) (hbehind : ReferenceBehind u) (hpending : pending = none)
    (hflash : u.env.ref.flash = fl) : Reaches n s q sc fl :=
  ⟨_, hlead, ⟨hsame.cfg, hsame.port, hsame.session, hsame.kind, hsame.req, hsame.calls⟩,
    ⟨⟨hbehind.cfg, hbehind.port, hbehind.session, hbehind.kind⟩, rfl, rfl, hpending, hflash⟩⟩

/-- Behind WREN an operation that opens a scope goes on with its body (R124). -/
theorem returnTransact_mutating {u : State} (v : List Byte) (hscope : u.scope = .closed)
    (hop : mutating (currentOp u) = true) : returnTransact v u = enterBody u := by
  unfold returnTransact returnOutside
  rw [hscope]
  generalize currentOp u = op at hop ⊢
  match op, hop with
  | some (.erase64kb _), _ | some (.programPage _ _), _ | some (.program _ _ _), _ => rfl

/-- WREN sets the latch, and the scope's body follows (R124, R125). -/
theorem StandsAt.wren {w : List Byte} (h : StandsAt s (.frame wrenFrame) .closed fl) (hidle : fl.busy = 0)
    (hop : mutating (currentOp s) = true) (hbody : ∀ u, u.req = s.req → scopeBody u = ⟨w, 0, 0⟩) (hlen : w.length ≤ 512) :
    Reaches 3 s (.frame ⟨w, 0, 0⟩) .body { fl with wel := true } := by
  obtain ⟨u, hlead, hsame, hbehind, hscope, _, hflash⟩ := h.write (by simp) (by simp)
  have hop' : mutating (currentOp u) = true := by rw [currentOp, hsame.req]; exact hop
  rw [returnTransact_mutating [] hscope hop', enterBody, hbody u hsame.req, issueFrame, frameTooLong_of_length 0 0 hlen]
    at hlead
  exact reaches_line (u := u) hlead hsame hbehind rfl (hflash.trans ((flashFrame_wren [] 0 fl).trans (if_pos hidle)))

/-- The body's frame meets the flash, and the first poll follows (R124, R126). -/
theorem StandsAt.body {w : List Byte} (h : StandsAt s (.frame ⟨w, 0, 0⟩) .body fl) (hw : w ≠ []) (hlen : w.length ≤ 512) :
    Reaches 3 s (.frame rdsrFrame) .polling (flashFrame w 0 fl).2 := by
  obtain ⟨u, hlead, hsame, hbehind, hscope, hpending, hflash⟩ := h.write hw hlen
  have hreturn : returnTransact [] u = startPoll u := by
    unfold returnTransact
    rw [hscope]
  rw [hreturn] at hlead
  exact reaches_line (u := u) hlead hsame hbehind hpending hflash

/-- A poll uses up one busy answer and goes on as its WIP bit says (R126). -/
theorem StandsAt.poll (h : StandsAt s (.frame rdsrFrame) .polling fl) :
    ∃ u, LeadsTo 5 s (pollAnswer [flashStatus fl] u) ∧ SameOperation 5 s u ∧ ReferenceBehind u ∧ u.scope = .polling ∧
      u.pendingErr = none ∧ u.env.ref.flash = { fl with busy := fl.busy - 1 } := by
  obtain ⟨u, hrun, hreturn, hkept, hflash⟩ := read_transaction h.behind h.seq (by decide) (by decide) (by decide)
    (drivesFrame_rdsr (isDefault_of_behind h.behind))
  have hanswer : flashFrame [opRdsr] rdsrFrame.rdLen s.env.ref.flash =
      ([flashStatus fl], { fl with busy := fl.busy - 1 }) := by
    rw [h.flash]
    exact flashFrame_rdsr [] 1 fl
  have hbehind := hkept.behind h.behind
  have hscope : u.scope = .polling := hkept.scope.trans h.scope
  have hpoll : returnTransact [flashStatus fl] u = pollAnswer [flashStatus fl] u := by
    unfold returnTransact
    rw [hscope]
  rw [hanswer] at hreturn hflash
  exact ⟨u, ⟨u, hrun, hbehind.port, hreturn.trans hpoll⟩, hkept.toSameOperation, hbehind, hscope,
    hkept.pendingErr.trans h.noError, hflash⟩

theorem wipClear_flashStatus (fl : Flash) : wipClear (flashStatus fl) = decide (fl.busy = 0) := by
  unfold wipClear flashStatus
  by_cases hbusy : fl.busy = 0
  · cases fl.wel <;> simp [hbusy]
  · cases fl.wel <;> simp [hbusy, Nat.pos_of_ne_zero hbusy]

/-- As many polls as the flash has busy answers, and one that finds it idle; then WRDI (R126, R127). -/
theorem polls_reach_wrdi (n : Nat) : ∀ {s : State} {fl : Flash}, StandsAt s (.frame rdsrFrame) .polling fl → fl.busy = n →
    Reaches (5 * n + 5) s (.frame wrdiFrame) .closing { fl with busy := 0 } := by
  induction n with
  | zero =>
    intro s fl h hbusy
    obtain ⟨u, hlead, hsame, hbehind, _, hpending, hflash⟩ := h.poll
    have hidle : wipClear (flashStatus fl) = true := by rw [wipClear_flashStatus, hbusy]; rfl
    rw [pollAnswer, if_pos hidle] at hlead
    rw [hbusy] at hflash
    exact reaches_line (u := u) hlead hsame hbehind hpending hflash
  | succ n ih =>
    intro s fl h hbusy
    obtain ⟨u, hlead, hsame, hbehind, hscope, hpending, hflash⟩ := h.poll
    have hwip : ¬wipClear (flashStatus fl) = true := by rw [wipClear_flashStatus, hbusy]; simp
    rw [pollAnswer, if_neg hwip] at hlead
    have hagain : Reaches 5 s (.frame rdsrFrame) .polling { fl with busy := n } := by
      rw [hbusy] at hflash
      exact hscope ▸ reaches_line (u := u) hlead hsame hbehind hpending hflash
    have hcount : 5 * (n + 1) + 5 = 5 + (5 * n + 5) := by omega
    rw [hcount]
    exact hagain.trans fun v _ hv => ih (fl := { fl with busy := n }) hv rfl

/-- WRDI clears the latch and closes the scope; outside PROGRAM the operation ends with `[]` (R124, R127). -/
theorem StandsAt.wrdi (h : StandsAt s (.frame wrdiFrame) .closing fl) (hidle : fl.busy = 0)
    (hop : ∀ a p n, currentOp s ≠ some (.program a p n)) :
    Reaches 3 s (.emit (.ok [])) .closed { fl with wel := false } := by
  obtain ⟨u, hlead, hsame, hbehind, hscope, hpending, hflash⟩ := h.write (by simp) (by simp)
  have hop' : ∀ a p n, currentOp u ≠ some (.program a p n) := by
    rw [currentOp, hsame.req]
    exact hop
  have hreturn : returnTransact [] u = finishOp [] { u with scope := .closed } := by
    unfold returnTransact closeScope
    rw [hscope, hpending]
    dsimp only
    split
    · exact absurd ‹_› (hop' _ _ _)
    · rfl
  rw [hreturn] at hlead
  exact reaches_line (u := u) hlead hsame hbehind hpending (hflash.trans ((flashFrame_wrdi [] 0 fl).trans (if_pos hidle)))

/-- The whole scope around one write transaction, over an idle flash that the body leaves as `after` (R124). -/
theorem StandsAt.bracket {w : List Byte} {after : Flash} (h : StandsAt s (.frame wrenFrame) .closed fl)
    (hidle : fl.busy = 0) (hop : mutating (currentOp s) = true) (hprogram : ∀ a p n, currentOp s ≠ some (.program a p n))
    (hbody : ∀ u, u.req = s.req → scopeBody u = ⟨w, 0, 0⟩) (hw : w ≠ []) (hlen : w.length ≤ 512)
    (hafter : (flashFrame w 0 { fl with wel := true }).2 = after) :
    Reaches (3 + 3 + (5 * after.busy + 5) + 3) s (.emit (.ok [])) .closed { after with wel := false, busy := 0 } := by
  subst hafter
  have hwren := h.wren hidle hop hbody hlen
  have hbody := hwren.trans fun v _ hv => hv.body hw hlen
  have hpolls := hbody.trans fun v _ hv => polls_reach_wrdi _ hv rfl
  refine hpolls.trans fun v hsame hv => hv.wrdi rfl ?_
  rw [currentOp, hsame.req]
  exact hprogram

/-! ### The whole operation -/

/-- A request whose head leads to WREN, run from its presentation to its emission. -/
theorem mutating_request_runs {r : Request} {w : List Byte} {after : Flash} (h : ReferenceReady s) (hscope : s.scope = .closed)
    (hpending : s.pendingErr = none)
    (haccept : exec (decodeRequest r) { s with seq := .idle, port := [] } = .next (accepted r { s with port := [] }))
    (hhead : proceed (accepted r { s with port := [] }) = { accepted r { s with port := [] } with seq := .frame wrenFrame })
    (hop : mutating (some (decodeRequest r)) = true) (hprogram : ∀ a p n, decodeRequest r ≠ .program a p n)
    (hbody : ∀ u : State, u.req = some r → scopeBody u = ⟨w, 0, 0⟩) (hw : w ≠ []) (hlen : w.length ≤ 512)
    (hafter : (flashFrame w 0 { s.env.ref.flash with wel := true }).2 = after) :
    ∃ u, runSteps (1 + (3 + 3 + (5 * after.busy + 5) + 3) + 1) (presented r s) = .next u ∧ u.seq = .idle ∧
      u.result = some (.ok []) ∧ u.env.ref.flash = { after with wel := false, busy := 0 } ∧
      ∃ new, u.events = new ++ s.events ∧ new.length = 3 + 3 + (5 * after.busy + 5) + 3 := by
  have hstart : LeadsTo 1 (presented r s) { accepted r { s with port := [] } with seq := .frame wrenFrame } :=
    ⟨_, runSteps_one (step_presented haccept), rfl, hhead⟩
  have hstands : StandsAt { accepted r { s with port := [] } with seq := .frame wrenFrame } (.frame wrenFrame) .closed
      s.env.ref.flash :=
    ⟨⟨h.cfg, rfl, h.session, h.kind⟩, rfl, hscope, hpending, rfl⟩
  obtain ⟨v, hlead, hsame, hv⟩ := hstands.bracket h.notBusy hop (fun a p n he => hprogram a p n (Option.some.inj he)) hbody
    hw hlen hafter
  exact ⟨_, (hstart.trans hlead).emits hv.behind.port hv.seq, rfl, rfl, hv.flash, hsame.calls⟩

end Sys2Proof.Proofs.ReferenceScope

open Sys2Proof Sys2Proof.Machine Sys2Proof.Safety Sys2Proof.Proofs.Acceptance Sys2Proof.Proofs.FlashRanges
  Sys2Proof.Proofs.FlashTransactions Sys2Proof.Proofs.ReferenceScope in
/-- Settles O40: the scope around the erase frame, with two busy polls. -/
theorem eraseClearsItsBlock : Obligations.EraseClearsItsBlock := by
  unfold Obligations.EraseClearsItsBlock
  intro s a h hscope hpending ha
  obtain ⟨u, hrun, hidle, hresult, hflash, hcalls⟩ := mutating_request_runs (r := { bareRequest 4 with addr := a })
    (w := opBlockErase :: be24 a) h hscope hpending rfl (beginPage_of_fits ha) rfl (by simp [decodeRequest, bareRequest])
    (fun u hu => by rw [scopeBody, currentOp, hu]; rfl) (by simp) (by simp)
    (flashFrame_erase_at 0 h.notBusy rfl ha)
  rw [show encode (.erase64kb a) = .request { bareRequest 4 with addr := a } from rfl, withEncoded_request _ h.port]
  refine ⟨u, hrun, hidle, hresult, congrArg Flash.wel hflash, congrArg Flash.busy hflash, fun x hx => ?_, hcalls⟩
  exact (congrArg (fun f => memRead f.mem x) hflash).trans (memRead_memErase64k_block _ hx)

open Sys2Proof Sys2Proof.Machine Sys2Proof.Safety Sys2Proof.Proofs.Acceptance Sys2Proof.Proofs.FlashRanges
  Sys2Proof.Proofs.FlashFrames Sys2Proof.Proofs.FlashTransactions Sys2Proof.Proofs.ReferenceScope in
/-- Settles O41: the scope around the page program's frame, with one busy poll; inside the page the data do not wrap. -/
theorem programPageClearsBits : Obligations.ProgramPageClearsBits := by
  unfold Obligations.ProgramPageClearsBits
  intro s a p h hscope hpending ha hpage
  obtain ⟨u, hrun, hidle, hresult, hflash, hcalls⟩ := mutating_request_runs
    (r := { bareRequest 5 with addr := a, payload := p }) (w := opPageProgram :: (be24 a ++ p)) h hscope hpending rfl
    (beginPage_of_fits ha) rfl (by simp [decodeRequest, bareRequest]) (fun u hu => by rw [scopeBody, currentOp, hu]; rfl)
    (by simp) (by rw [List.length_cons, List.length_append, be24_length]; omega)
    (flashFrame_program_at 0 p h.notBusy rfl ha)
  have hinside : ∀ j, j < p.length → pageAddr a j = a + j := fun j hj => pageAddr_of_inside (by omega)
  rw [show encode (.programPage a p) = .request { bareRequest 5 with addr := a, payload := p } from rfl,
    withEncoded_request _ h.port]
  refine ⟨u, hrun, hidle, hresult, congrArg Flash.wel hflash, congrArg Flash.busy hflash, fun j hj => ?_,
    fun x hx hout => ?_, hcalls⟩
  · rw [← hinside j hj]
    exact (congrArg (fun f => memRead f.mem (pageAddr a j)) hflash).trans
      (memRead_memProgram_data h.memWf ha (by omega) hj)
  · refine (congrArg (fun f => memRead f.mem x) hflash).trans (memRead_memProgram_untouched h.memWf ha hx fun j hj => ?_)
    rw [hinside j hj]
    omega
end

section
/-! The encodings (30_encoding.md): decode gives every encoded instruction back, a packet or frame that decodes has no second
encoding, and each flash command frame writes its SET_REGISTER packet. -/

namespace Sys2Proof.Proofs.Encoding

open Sys2Proof.Machine Sys2Proof.Safety Sys2Proof.Proofs.Sequencer Sys2Proof.Proofs.Acceptance
  Sys2Proof.Proofs.RegisterBlock

/-! ### Decoding what was encoded -/

/-- The three bytes behind an opcode are read as the address they were written from, the rest as data (R49, R80). -/
theorem decodeFrame_be24 (op : Byte) {a : Nat} (rest : List Byte) (rdLen dummy : Nat) (ha : a < flashSize) :
    decodeFrame ⟨op :: (be24 a ++ rest), rdLen, dummy⟩ = decodeAddrFrame op a rest rdLen dummy :=
  congrArg (decodeAddrFrame op · rest rdLen dummy) (fromBe24_be24_aux a ha)

theorem decodeFrame_fastRead {a : Nat} (n : Nat) (ha : a < flashSize) :
    decodeFrame (fastReadFrame a n) = .ok (.fastRead a n) :=
  decodeFrame_be24 opFastRead [] n 1 ha

theorem decodeFrame_blockErase {a : Nat} (ha : a < flashSize) :
    decodeFrame (blockEraseFrame a) = .ok (.blockErase64kb a) :=
  decodeFrame_be24 opBlockErase [] 0 0 ha

theorem decodeFrame_pageProgram {a : Nat} (p : List Byte) (ha : a < flashSize) :
    decodeFrame (pageProgramFrame a p) = .ok (.pageProgram a p) :=
  decodeFrame_be24 opPageProgram p 0 0 ha

theorem decode_encode {i : Instr} (h : i.wellFormed = true) : decode (encode i) = .ok i := by
  cases i with
  | reset | readId | readUid | readData | erase64kb | programPage | program | transact => rfl
  | openSession | closeSession => rfl
  | setRegister p =>
    simp only [Instr.wellFormed, Bool.and_eq_true, decide_eq_true_eq] at h
    obtain ⟨_, hfits⟩ := h
    exact decodeWire_setRegister hfits
  | readRegister => exact decodeWire_readRegister
  | readDataPkt => exact decodeWire_readData
  | rdid | rduid | wren | rdsr | wrdi => rfl
  | fastRead a n =>
    simp only [Instr.wellFormed, Bool.and_eq_true, decide_eq_true_eq] at h
    obtain ⟨⟨haddr, _⟩, _⟩ := h
    exact decodeFrame_fastRead n haddr
  | blockErase64kb a => exact decodeFrame_blockErase (of_decide_eq_true h)
  | pageProgram a p => exact decodeFrame_pageProgram p (of_decide_eq_true h)

/-! ### Encoding what was decoded -/

/-- The header's two words and the payload, written out again, are the packet's bytes (R70, R97). -/
theorem encodePacket_of_decodePacket {raw : List Byte} {c : Word} {p : List Byte} (h : decodePacket raw = .ok (c, p)) :
    encodePacket c p = raw := by
  obtain ⟨hheader, hdeclared, rfl, rfl⟩ := decodePacket_eq_ok h
  have hlength : BitVec.ofNat 32 (raw.drop hdrBytes).length = fromLe32 (slice raw 4 8) := by
    rw [List.length_drop, hdeclared, BitVec.ofNat_toNat, BitVec.setWidth_eq]
  calc encodePacket (fromLe32 (slice raw 0 4)) (raw.drop hdrBytes)
      = slice raw 0 4 ++ (slice raw 4 8 ++ raw.drop 8) := by
        rw [encodePacket, hlength, le32_fromLe32_slice rfl (le_trans (by decide) hheader), le32_fromLe32_slice rfl hheader,
          List.append_assoc]
    _ = raw.drop 0 := by rw [slice_append_drop raw (by decide), slice_append_drop raw (by decide)]
    _ = raw := rfl

/-- The packet behind a wire command: its own command word, and for the two requests no payload (R71). -/
theorem decodePacket_of_decodeWire {raw : List Byte} {i : Instr} (h : decodeWire raw = .ok i) :
    ∃ c p, decodePacket raw = .ok (c, p) ∧ encode i = .packet (encodePacket c p) := by
  unfold decodeWire at h
  split at h
  next => cases h
  next c p hpacket =>
    refine ⟨c, p, hpacket, ?_⟩
    split_ifs at h with hset hregister hempty hdata hempty <;> cases h
    · rw [hset]; rfl
    · rw [hregister, hempty]; rfl
    · rw [hdata, hempty]; rfl

theorem encode_of_decodeWire {raw : List Byte} {i : Instr} (h : decodeWire raw = .ok i) : encode i = .packet raw := by
  obtain ⟨c, p, hpacket, hencode⟩ := decodePacket_of_decodeWire h
  rw [hencode, encodePacket_of_decodePacket hpacket]

/-! ### The transaction of a flash command frame -/

/-- Every flash command drives at least its opcode (R80). -/
theorem frameEmpty_of_encode_frame {i : Instr} {f : Frame} (h : encode i = .frame f) : frameEmpty f = false := by
  cases i <;> simp only [encode, reduceCtorEq, Encoded.frame.injEq] at h <;> subst h <;> rfl

variable {s : State}

theorem runTransact_of_tooLong {f : Frame} (hempty : frameEmpty f = false) (hlong : frameTooLong f = true) :
    runTransact f s = raiseErr (.invalidArgument (.wbytes f.wbytes)) s := by
  simp [runTransact, hempty, hlong]

/-- Header, Register Block and padded write string (R70, R112). -/
theorem setPacket_length (c : Config) (f : Frame) :
    (setPacket c f).length = 48 + f.wbytes.length + paddingOf f.wbytes.length := by
  simp only [setPacket, padded, encodePacket_length, serialize_length, List.length_append, List.length_replicate]
  omega

/-- Behind a SET_REGISTER packet that the transport takes whole the transaction's next line stands (R99, R113, R114). -/
theorem proceed_sendTransact_taken {f : Frame} (h : takesPacket (setPacket s.cfg f) s) :
    proceed (sendTransact f s) = goLine (afterSet f) (sendTransact f s) :=
  proceed_sendPacket_taken (s := { s with
    td := describe f.wbytes.length f.rdLen f.dummy
    rb := transactBlock s.cfg (describe f.wbytes.length f.rdLen f.dummy) }) (afterSet f) h

/-- The line behind SET_REGISTER: READ_DATA's packet where the transaction reads, else READ_REGISTER's. -/
theorem goLine_afterSet (f : Frame) : goLine (afterSet f) s = { s with
    data := []
    seq := if f.rdLen ≠ 0 then .packet [0x02, 0x00, 0x02, 0x00, 0x00, 0x00, 0x00, 0x00]
      else .packet [0x01, 0x00, 0x02, 0x00, 0x00, 0x00, 0x00, 0x00] } := by
  unfold afterSet
  split_ifs <;> rfl

end Sys2Proof.Proofs.Encoding

open Sys2Proof.Proofs.Encoding in
/-- Settles O2, instruction by instruction: a packet's header gives command and payload back, an address its three bytes. -/
theorem decodeOfEncodeIsIdentity : Obligations.DecodeOfEncodeIsIdentity := by
  unfold Obligations.DecodeOfEncodeIsIdentity
  exact fun i => decode_encode

open Sys2Proof Sys2Proof.Machine Sys2Proof.Proofs.Encoding in
/-- Settles O3: what the codec and the frame decoder accept is written out again byte by byte. -/
theorem decodedPacketsAndFramesReencode : Obligations.DecodedPacketsAndFramesReencode := by
  unfold Obligations.DecodedPacketsAndFramesReencode
  exact ⟨fun _ _ => encode_of_decodeWire, fun _ _ => encode_of_decodeFrame⟩

open Sys2Proof Sys2Proof.Machine Sys2Proof.Safety Sys2Proof.Proofs.Sequencer Sys2Proof.Proofs.Encoding in
/-- Settles O27: a frame runs as its transaction, which is not the empty one, so the length check of R96 alone decides. -/
theorem framesWriteTheirRegisterBlock : Obligations.FramesWriteTheirRegisterBlock := by
  unfold Obligations.FramesWriteTheirRegisterBlock
  intro s i f hencode
  have hempty := frameEmpty_of_encode_frame hencode
  rw [exec_of_encode_frame s hencode]
  refine ⟨fun hlong => ?_, fun hlong => ⟨sendTransact f s, ?_, ?_, fun htaken => ?_⟩⟩
  · rw [runTransact_of_tooLong hempty hlong]
  · rw [sendTransact_eq, setPacket_length]
    rfl
  · rw [runTransact_of_ok hempty hlong]
  · rw [proceed_sendTransact_taken htaken, goLine_afterSet]

open Sys2Proof in
/-- Settles O1: the decoder's table of `op` values looks at no unused operand. -/
theorem requestWordsAreTheOperations : Obligations.RequestWordsAreTheOperations := by
  unfold Obligations.RequestWordsAreTheOperations
  exact ⟨fun r => ⟨rfl, rfl, rfl, rfl, rfl, rfl, rfl, rfl⟩, rfl, rfl⟩

open Sys2Proof Sys2Proof.Proofs.Sequencer Sys2Proof.Proofs.Encoding in
/-- Settles O4: the table words are evaluated; the packet and the two frames are encodings, which decode to what they encode. -/
theorem writtenOutWordsDecode : Obligations.WrittenOutWordsDecode := by
  unfold Obligations.WrittenOutWordsDecode
  refine ⟨by decide, by decide, by decide, by decide, by decide, ?_, ?_, ?_⟩
  · exact decodeWire_setRegister (p := [0xAA, 0xBB]) (by decide)
  · exact decodeFrame_fastRead (a := 0x0A1B2C) 80 (by decide)
  · exact decodeFrame_pageProgram (a := 0x000200) [0x5A] (by decide)
end

section
/-! The Register Block as a table and as bytes (40_register_block.md R86, R92, R93): the slots of a fresh block, the bytes of
each word, and the word of each four bytes. -/

namespace Sys2Proof.Proofs.BlockBytes

open Sys2Proof.Machine

/-! ### The slots of a block -/

theorem slotList_getElem? {α : Type} (t : Slots α) (i : Fin 10) : (slotList t)[i.val]? = some (slotGet t i) := by
  fin_cases i <;> rfl

theorem wordGet_defaultsBlock (c : Config) (i : Fin 10) :
    wordGet (defaultsBlock c) i = regDefault c.defaults (slotGet c.slots i) := by
  fin_cases i <;> rfl

/-- Of the default words only those of TransferFormat (slot 1) and Status (slot 6) are not 0 (R87). -/
theorem defaultsBlock_defaultConfigWith (t v p : Nat) :
    defaultsBlock (defaultConfigWith t v p) = ⟨0, 0x00020780, 0, 0, 0, 0, 0x00404000, 0, 0, 0⟩ := rfl

/-! ### The bytes of the words (R92) -/

theorem le32_getElem? (v : Word) {j : Nat} (hj : j < 4) : (le32 v)[j]? = some (v.extractLsb' (8 * j) 8) := by
  interval_cases j <;> rfl

/-- In a list of words written out in order, word `i` takes the four bytes from `4i` on. -/
theorem flatMap_le32_getElem? (ws : List Word) (i : Nat) {j : Nat} (hj : j < 4) :
    (ws.flatMap le32)[4 * i + j]? = ws[i]?.map (·.extractLsb' (8 * j) 8) := by
  induction ws generalizing i with
  | nil => rfl
  | cons w ws ih =>
    rw [List.flatMap_cons]
    cases i with
    | zero =>
      rw [Nat.mul_zero, Nat.zero_add, List.getElem?_append_left (by simpa using hj), le32_getElem? w hj]
      rfl
    | succ i =>
      have hskip : 4 * (i + 1) + j - (le32 w).length = 4 * i + j := by rw [le32_length]; omega
      rw [List.getElem?_append_right (by rw [le32_length]; omega), hskip, ih i, List.getElem?_cons_succ]

theorem serialize_eq_flatMap (rb : RegBlock) : serialize rb = (slotList rb).flatMap le32 := rfl

theorem serialize_getElem? (rb : RegBlock) (i : Fin 10) {j : Nat} (hj : j < 4) :
    (serialize rb)[4 * i.val + j]? = some ((wordGet rb i).extractLsb' (8 * j) 8) := by
  rw [serialize_eq_flatMap, flatMap_le32_getElem? _ _ hj, slotList_getElem?]
  rfl

/-! ### The words of the bytes (R93) -/

theorem wordGet_blockOfBytes (s : List Byte) (i : Fin 10) :
    wordGet (blockOfBytes s) i = fromLe32 (slice s (4 * i.val) (4 * i.val + 4)) := by
  fin_cases i <;> rfl

theorem deserialize_of_length_ne {s : List Byte} (h : s.length ≠ 40) :
    deserialize s = .error (.registerBlockLength s.length) := if_pos h

end Sys2Proof.Proofs.BlockBytes

open Sys2Proof Sys2Proof.Machine Sys2Proof.Proofs.BlockBytes in
/-- Settles O9: the slot a register is found in holds that register's name, so it is filled with that register's word. -/
theorem defaultsFillEverySlot : Obligations.DefaultsFillEverySlot := by
  unfold Obligations.DefaultsFillEverySlot
  refine ⟨fun c r i hslot => ?_, wordGet_defaultsBlock, fun t v p => ?_⟩
  · rw [wordGet_defaultsBlock, slotGet_regSlot hslot]
  · rw [defaultsBlock_defaultConfigWith]
    decide

open Sys2Proof Sys2Proof.Machine Sys2Proof.Proofs.BlockBytes in
/-- Settles O10: the block is its ten words written out in slot order, and each word takes four bytes. -/
theorem serializeIsLittleEndianByWord : Obligations.SerializeIsLittleEndianByWord := by
  unfold Obligations.SerializeIsLittleEndianByWord
  exact fun rb => ⟨serialize_length rb, fun i _ => serialize_getElem? rb i⟩

open Sys2Proof Sys2Proof.Machine Sys2Proof.Proofs.RegisterBlock Sys2Proof.Proofs.BlockBytes in
/-- Settles O11: the length check decides, and slot `i` of the block is read from the four bytes from `4i` on. -/
theorem deserializeTakesFortyBytes : Obligations.DeserializeTakesFortyBytes := by
  unfold Obligations.DeserializeTakesFortyBytes
  exact fun s => ⟨deserialize_of_length_ne, fun hs => ⟨blockOfBytes s, deserialize_of_length hs, wordGet_blockOfBytes s⟩⟩
end

section
/-! The packet codec and its transport calls (41_packet_codec.md R95 to R100): what Decode answers, what the check behind a
write or a read raises, and where a wire command or flash command stands behind its own write. -/

namespace Sys2Proof.Proofs.PacketCodec

open Sys2Proof.Machine Sys2Proof.Safety Sys2Proof.Proofs.Sequencer Sys2Proof.Proofs.Encoding

/-! ### Decode (R97) -/

section Decode

variable {raw : List Byte}

theorem decodePacket_of_short (h : raw.length < 8) : decodePacket raw = .error (.malformedPacket raw.length) := if_pos h

/-- With a whole header the declared length decides. -/
theorem decodePacket_of_header (h : 8 ≤ raw.length) :
    decodePacket raw =
      if raw.length - 8 ≠ (fromLe32 (slice raw 4 8)).toNat then
        .error (.lengthMismatch (fromLe32 (slice raw 4 8)).toNat (raw.length - 8))
      else .ok (fromLe32 (slice raw 0 4), raw.drop 8) :=
  if_neg (Nat.not_lt.2 h)

theorem decodePacket_of_mismatch (h : 8 ≤ raw.length) (hdeclared : (fromLe32 (slice raw 4 8)).toNat ≠ raw.length - 8) :
    decodePacket raw = .error (.lengthMismatch (fromLe32 (slice raw 4 8)).toNat (raw.length - 8)) := by
  rw [decodePacket_of_header h, if_pos hdeclared.symm]

theorem decodePacket_of_declared (h : 8 ≤ raw.length) (hdeclared : (fromLe32 (slice raw 4 8)).toNat = raw.length - 8) :
    decodePacket raw = .ok (fromLe32 (slice raw 0 4), slice raw 8 raw.length) := by
  have hrest : slice raw 8 raw.length = raw.drop 8 := List.take_of_length_le List.length_drop.le
  rw [decodePacket_of_header h, if_neg (not_not.2 hdeclared.symm), hrest]

/-- Decode tells two packets apart, so Encode is injective on what a packet can declare (R98). -/
theorem encodePacket_injective {c d : Word} {p q : List Byte} (hp : p.length < payloadLimit) (hq : q.length < payloadLimit)
    (h : encodePacket c p = encodePacket d q) : c = d ∧ p = q := by
  have hboth : Except.ok (ε := Err) (c, p) = .ok (d, q) := by
    rw [← decodePacket_encodePacket c hp, h, decodePacket_encodePacket d hq]
  simpa using hboth

end Decode

/-! ### The checks behind a write and a read (R99, R100) -/

theorem checkWrite_eq_some {len : Nat} {a : WriteAnswer} {e : Err} :
    checkWrite len a = some e ↔
      (∃ k, a = .failed k ∧ e = .transportError k) ∨ (∃ n, a = .count n ∧ n ≠ len ∧ e = .shortWrite len n) := by
  cases a with
  | failed k => simp [@eq_comm _ e]
  | count n => by_cases h : n = len <;> simp [checkWrite, h, @eq_comm _ e]

variable {s t : State}

/-- `t` is `s` right behind the write of `raw`: the call is made and recorded, its answer not yet looked at. -/
structure BehindWrite (raw : List Byte) (s t : State) : Prop where
  events : t.events = .wrote raw s.cfg.timeoutMs (answerWrite raw s).1 :: s.events
  env : t.env = (answerWrite raw s).2
  scope : t.scope = s.scope
  pendingErr : t.pendingErr = s.pendingErr
  seq : ∃ next, t.seq = .wrote raw.length (answerWrite raw s).1 next

theorem sendPacket_behindWrite (s : State) (c : Word) (p : List Byte) (next : Line) :
    BehindWrite (encodePacket c p) s (sendPacket c p next s) :=
  ⟨rfl, rfl, rfl, rfl, next, rfl⟩

theorem sendTransact_behindWrite (s : State) (f : Frame) : BehindWrite (setPacket s.cfg f) s (sendTransact f s) :=
  ⟨rfl, rfl, rfl, rfl, afterSet f, rfl⟩

/-- What the check of the write finds is raised, whichever line would have followed. -/
theorem BehindWrite.proceed_of_error {raw : List Byte} {e : Err} (h : BehindWrite raw s t)
    (herr : checkWrite raw.length (answerWrite raw s).1 = some e) : proceed t = raiseErr e t := by
  obtain ⟨next, hseq⟩ := h.seq
  have hproceed : proceed t = afterWrite raw.length (answerWrite raw s).1 next t := by rw [proceed, hseq]
  rw [hproceed, afterWrite, herr]

/-- A wire command writes its packet, a flash command the SET_REGISTER packet of its transaction (R71, R104, R112). -/
theorem exec_behindWrite {i : Instr} {raw : List Byte}
    (h : (∃ p, i = .setRegister p ∧ raw = encodePacket cmdSetRegister p) ∨ (i = .readRegister ∧ raw = readRegisterPacket) ∨
      (i = .readDataPkt ∧ raw = readDataPacket) ∨
      (∃ f, encode i = .frame f ∧ frameTooLong f = false ∧ raw = setPacket s.cfg f)) :
    ∃ t, exec i s = .next t ∧ BehindWrite raw s t := by
  rcases h with ⟨p, rfl, rfl⟩ | ⟨rfl, rfl⟩ | ⟨rfl, rfl⟩ | ⟨f, hencode, hlong, rfl⟩
  · exact ⟨_, rfl, sendPacket_behindWrite s _ _ _⟩
  · exact ⟨_, rfl, sendPacket_behindWrite s _ _ _⟩
  · exact ⟨_, rfl, sendPacket_behindWrite s _ _ _⟩
  · refine ⟨sendTransact f s, ?_, sendTransact_behindWrite s f⟩
    rw [exec_of_encode_frame s hencode, runTransact_of_ok (frameEmpty_of_encode_frame hencode) hlong]

/-- What the check of either read finds is raised. -/
theorem proceed_of_read_error {a : ReadAnswer} {e : Err} (hseq : s.seq = .gotData a ∨ s.seq = .gotBlock a)
    (herr : checkRead a = .error e) : proceed s = raiseErr e s := by
  rcases hseq with hseq | hseq
  · have hproceed : proceed s = afterData a s := by rw [proceed, hseq]
    rw [hproceed, afterData, herr]
  · have hproceed : proceed s = afterBlock a s := by rw [proceed, hseq]
    rw [hproceed, afterBlock, herr]

end Sys2Proof.Proofs.PacketCodec

open Sys2Proof Sys2Proof.Machine Sys2Proof.Proofs.Sequencer Sys2Proof.Proofs.PacketCodec in
/-- Settles O7: Decode's two checks in their order; Encode is injective because Decode inverts it. -/
theorem packetCodecLaws : Obligations.PacketCodecLaws := by
  unfold Obligations.PacketCodecLaws
  exact ⟨fun c _ hp => decodePacket_encodePacket c hp, fun _ => decodePacket_of_short, fun _ => decodePacket_of_mismatch,
    fun _ => decodePacket_of_declared, fun _ _ _ _ => encodePacket_injective⟩

open Sys2Proof Sys2Proof.Machine Sys2Proof.Safety Sys2Proof.Proofs.PacketCodec in
/-- Settles O28: every such instruction stands right behind its write, so its check's error is raised there, and SCOPE says
where error entry leads. -/
theorem failedWritesRaiseAtOnce : Obligations.FailedWritesRaiseAtOnce := by
  unfold Obligations.FailedWritesRaiseAtOnce
  intro s i raw e hwrites hfails
  obtain ⟨t, hexec, ht⟩ := exec_behindWrite hwrites
  have hraised : proceed t = raiseErr e t := ht.proceed_of_error (checkWrite_eq_some.2 hfails)
  rw [← ht.scope, ← ht.pendingErr]
  refine ⟨t, hexec, ht.events, ht.env, fun hscope => ?_, fun hscope => ?_, fun hscope => ?_⟩
  · rw [hraised, raiseErr_outside t hscope]
  · rw [hraised, raiseErr_body t hscope]
    rfl
  · rw [hraised, raiseErr_exit t hscope]

open Sys2Proof Sys2Proof.Machine Sys2Proof.Safety Sys2Proof.Proofs.Acceptance Sys2Proof.Proofs.PacketCodec in
/-- Settles O16: the block stands right behind the write, whose check raises or lets the next line stand. -/
theorem sendPacketChecksTheCount : Obligations.SendPacketChecksTheCount := by
  unfold Obligations.SendPacketChecksTheCount
  intro s c p next
  have hbehind := sendPacket_behindWrite s c p next
  refine ⟨rfl, fun k hfailed => ?_, fun n hcount hn => ?_, fun htaken => ?_, fun hclosed => ?_⟩
  · exact hbehind.proceed_of_error (checkWrite_eq_some.2 (.inl ⟨k, hfailed, rfl⟩))
  · exact hbehind.proceed_of_error (checkWrite_eq_some.2 (.inr ⟨n, hcount, hn, rfl⟩))
  · exact proceed_sendPacket_taken next htaken
  · simp only [answerWrite_closed s hclosed, and_self]

open Sys2Proof Sys2Proof.Machine Sys2Proof.Proofs.Sequencer Sys2Proof.Proofs.PacketCodec in
/-- Settles O17: the read's answer is decoded by the codec, and what Decode rejects is raised behind either read. -/
theorem recvPacketDecodesOneRead : Obligations.RecvPacketDecodesOneRead := by
  unfold Obligations.RecvPacketDecodesOneRead
  exact ⟨fun s _ _ => ⟨rfl, answerRead_closed s⟩, fun _ => rfl, fun _ => rfl,
    fun c _ hp => decodePacket_encodePacket c hp, fun _ _ _ => proceed_of_read_error⟩
end

section
/-! The arithmetic of a transaction (42_transaction_engine.md R105 to R110, R116): the padding of the write string, the mode and
counters of each kind of transaction, and the dummy units between its two phases. -/

namespace Sys2Proof.Proofs.TransactionArithmetic

open Sys2Proof.Machine

/-! ### Padding (R105) -/

theorem paddingOf_eq (n : Nat) : paddingOf n = (4 - n % 4) % 4 := rfl

theorem paddingOf_le (n : Nat) : paddingOf n ≤ 3 := by rw [paddingOf_eq]; omega

theorem add_paddingOf_mod (n : Nat) : (n + paddingOf n) % 4 = 0 := by rw [paddingOf_eq]; omega

theorem paddingOf_of_aligned {n : Nat} (h : n % 4 = 0) : paddingOf n = 0 := by rw [paddingOf_eq, h]

theorem paddingOf_of_unaligned {n : Nat} (h : n % 4 ≠ 0) : paddingOf n = 4 - n % 4 := by rw [paddingOf_eq]; omega

theorem padded_length (w : List Byte) : (padded w).length = w.length + paddingOf w.length := by
  rw [padded, List.length_append, List.length_replicate]

/-! ### The descriptor, mode by mode (R107 to R110) -/

theorem describe_writeOnly (w d : Nat) : describe w 0 d =
    { wrLen := w, rdLen := 0, dummy := d, padding := paddingOf w,
      mode := .writeOnly, wrCnt := some (w - 1), rdCnt := none, dmCnt := none } := rfl

variable {w r d : Nat}

theorem describe_readOnly (d : Nat) (hr : r ≠ 0) : describe 0 r d =
    { wrLen := 0, rdLen := r, dummy := d, padding := paddingOf 0,
      mode := .readOnly, wrCnt := none, rdCnt := some (r - 1), dmCnt := none } := by
  rw [describe, if_neg hr, if_pos rfl]
  rfl

/-- The dummy units fit into the padding (R109). -/
theorem describe_writeThenRead (hw : w ≠ 0) (hr : r ≠ 0) (hd : d ≤ paddingOf w) : describe w r d =
    { wrLen := w, rdLen := r, dummy := d, padding := paddingOf w,
      mode := .writeThenRead, wrCnt := some (w - 1 + d), rdCnt := some (r - 1), dmCnt := none } := by
  rw [describe, if_neg hr, if_neg hw, if_pos (.inr hd)]
  rfl

/-- The dummy units go beyond the padding (R110). -/
theorem describe_writeDummyRead (hw : w ≠ 0) (hr : r ≠ 0) (hd : paddingOf w < d) : describe w r d =
    { wrLen := w, rdLen := r, dummy := d, padding := paddingOf w,
      mode := .writeDummyRead, wrCnt := some (w - 1 + paddingOf w), rdCnt := some (r - 1),
      dmCnt := some (d - 1 - paddingOf w) } := by
  rw [describe, if_neg hr, if_neg hw, if_neg (by omega)]

end Sys2Proof.Proofs.TransactionArithmetic

open Sys2Proof Sys2Proof.Proofs.TransactionArithmetic in
/-- Settles O12: the formula, by the remainder of the length. -/
theorem paddingRule : Obligations.PaddingRule := by
  unfold Obligations.PaddingRule
  exact ⟨fun n => ⟨paddingOf_eq n, paddingOf_le n, add_paddingOf_mod n, paddingOf_of_aligned, paddingOf_of_unaligned⟩,
    fun w => ⟨rfl, padded_length w⟩⟩

open Sys2Proof Sys2Proof.Machine Sys2Proof.Proofs.TransactionArithmetic in
/-- Settles O13: what is written, what is read, and the dummy count against the padding choose the descriptor. -/
theorem modeAndCounters : Obligations.ModeAndCounters := by
  unfold Obligations.ModeAndCounters
  refine fun w r d hwork => ⟨fun hr => ?_, fun hw => ?_, fun hw hr hd => ?_, fun hw hr hd => ?_⟩
  · rw [hr, describe_writeOnly]
    exact ⟨rfl, rfl, rfl, rfl⟩
  · have hr : r ≠ 0 := hwork.resolve_left (not_not.2 hw)
    rw [hw, describe_readOnly d hr]
    exact ⟨rfl, rfl, rfl, rfl⟩
  · rw [describe_writeThenRead hw hr hd]
    exact ⟨rfl, rfl, rfl, rfl⟩
  · rw [describe_writeDummyRead hw hr hd]
    exact ⟨rfl, rfl, rfl, rfl⟩

open Sys2Proof Sys2Proof.Machine Sys2Proof.Proofs.TransactionArithmetic in
/-- Settles O14: dummy units inside the padding lengthen the write phase by themselves; beyond it, the write phase takes the
whole padding and DummyCnt the rest. -/
theorem dummyUnitsAddUp : Obligations.DummyUnitsAddUp := by
  unfold Obligations.DummyUnitsAddUp
  intro w r d wc hw hr hwc
  refine ⟨add_paddingOf_mod w, paddingOf_le w, ?_⟩
  by_cases hd : d ≤ paddingOf w
  · rw [describe_writeThenRead hw hr hd] at hwc ⊢
    cases hwc
    refine ⟨by omega, by omega, nofun, ?_⟩
    show w - 1 + d + 1 - w + 0 = d
    omega
  · rw [describe_writeDummyRead hw hr (Nat.not_le.1 hd)] at hwc ⊢
    cases hwc
    refine ⟨by omega, by omega, fun _ => ⟨by omega, _, rfl, by omega⟩, ?_⟩
    show w - 1 + paddingOf w + 1 - w + (d - 1 - paddingOf w + 1) = d
    omega
end

section
/-! The Register Blocks of a transaction and of RESET (42_transaction_engine.md R111, 43_flash_controller.md R120): both are the
default block after a list of field writes, and in a well-formed configuration (10_state.md R15, R31) such a list changes no
bit but those of its fields. -/

namespace Sys2Proof.Proofs.TransactionBlock

open Sys2Proof.Machine Sys2Proof.Proofs.RegisterBlock Sys2Proof.Proofs.DefaultBridge

variable {c : Config} {f g : Field}

/-! ### Well-formed configurations -/

theorem rowDisjoint_iff {a b : FieldBits} :
    a.disjoint b = true ↔ a.field ≠ b.field ∧ (fieldReg a.field = fieldReg b.field → Apart a b) := by
  simp only [FieldBits.disjoint, Apart, Bool.and_eq_true, Bool.or_eq_true, decide_eq_true_eq]
  tauto

theorem rowDisjoint_symm : Std.Symm fun a b : FieldBits => a.disjoint b = true where
  symm a b h := by
    obtain ⟨hfield, hapart⟩ := rowDisjoint_iff.1 h
    exact rowDisjoint_iff.2 ⟨hfield.symm, fun hreg => (hapart hreg.symm).symm⟩

theorem disjointRows_iff_pairwise {rows : List FieldBits} :
    disjointRows rows = true ↔ rows.Pairwise fun a b => a.disjoint b = true := by
  induction rows with
  | nil => simp [disjointRows]
  | cons b rest ih => rw [disjointRows, Bool.and_eq_true, List.all_eq_true, List.pairwise_cons, ih]

theorem wellFormed_iff : c.wellFormed = true ↔ c.slotsOk = true ∧ c.layoutOk = true ∧ c.modesOk = true := by
  rw [Config.wellFormed, Bool.and_eq_true, Bool.and_eq_true, and_assoc]

theorem layoutOk_iff : c.layoutOk = true ↔
    (∀ b ∈ c.layout, 1 ≤ b.width ∧ b.lo + b.width ≤ 32) ∧ (c.layout.Pairwise fun a b => a.disjoint b = true) ∧
      ∀ f ∈ usedFields, ∃ b, fieldBits c f = some b := by
  simp only [Config.layoutOk, Bool.and_eq_true, List.all_eq_true, decide_eq_true_eq, disjointRows_iff_pairwise,
    Option.isSome_iff_exists, and_assoc]

theorem slotsOk_mapped (h : c.slotsOk = true) {r : RegName} (hr : r = .control ∨ r = .transferControl) :
    ∃ i, regSlot c r = some i := by
  rw [Config.slotsOk, Bool.and_eq_true, List.all_eq_true] at h
  exact Option.isSome_iff_exists.1 (h.2 r (by rcases hr with rfl | rfl <;> simp))

/-- A field's row stands in the layout under its name. -/
theorem fieldBits_mem {b : FieldBits} (h : fieldBits c f = some b) : b ∈ c.layout ∧ b.field = f :=
  ⟨List.mem_of_find?_eq_some h, by simpa using List.find?_some h⟩

theorem row_inside (h : c.wellFormed = true) {b : FieldBits} (hb : fieldBits c f = some b) :
    1 ≤ b.width ∧ b.lo + b.width ≤ 32 := by
  obtain ⟨_, hlayout, _⟩ := wellFormed_iff.1 h
  exact (layoutOk_iff.1 hlayout).1 b (fieldBits_mem hb).1

/-- Two fields of one register claim different bits (GK1). -/
theorem rows_apart (h : c.wellFormed = true) (hne : g ≠ f) (hreg : fieldReg g = fieldReg f) {b d : FieldBits}
    (hb : fieldBits c f = some b) (hd : fieldBits c g = some d) : Apart d b := by
  obtain ⟨_, hlayout, _⟩ := wellFormed_iff.1 h
  obtain ⟨_, hpairwise, _⟩ := layoutOk_iff.1 hlayout
  obtain ⟨hbmem, rfl⟩ := fieldBits_mem hb
  obtain ⟨hdmem, rfl⟩ := fieldBits_mem hd
  have hsymm := rowDisjoint_symm
  have hdisjoint := hpairwise.forall hdmem hbmem fun e => hne (congrArg FieldBits.field e)
  exact (rowDisjoint_iff.1 hdisjoint).2 hreg

/-- Every field the block writes has a slot and a place (R15, R31). -/
theorem usedField_placed (h : c.wellFormed = true) (hf : f ∈ usedFields) : ∃ i b, Placed c f i b := by
  obtain ⟨hslots, hlayout, _⟩ := wellFormed_iff.1 h
  have hreg : fieldReg f = .control ∨ fieldReg f = .transferControl := by revert f; decide
  obtain ⟨i, hi⟩ := slotsOk_mapped hslots hreg
  obtain ⟨b, hb⟩ := (layoutOk_iff.1 hlayout).2.2 f hf
  exact ⟨i, b, hi, hb, (row_inside h hb).2⟩

/-- A mode's code is not cut by its field (log 31). -/
theorem modeCode_fits (h : c.wellFormed = true) {b : FieldBits} (hb : fieldBits c .transMode = some b) (m : Mode) :
    modeCode c.modes m < 2 ^ b.width := by
  obtain ⟨_, _, hmodes⟩ := wellFormed_iff.1 h
  simp only [Config.modesOk, hb, Bool.and_eq_true, List.all_eq_true, decide_eq_true_eq] at hmodes
  exact hmodes.2 _ (by cases m <;> simp [modeCode])

/-! ### One field write -/

/-- A field write changes no other field. -/
theorem fieldGet_fieldSet_ne (h : c.wellFormed = true) (rb : RegBlock) (v : Nat) (hne : g ≠ f) :
    fieldGet c (fieldSet c rb f v) g = fieldGet c rb g := by
  unfold fieldSet
  split
  case h_2 => rfl
  case h_1 i b hi hb =>
    unfold fieldGet
    split
    case h_2 => rfl
    case h_1 j d hj hd =>
      by_cases hij : j = i
      · subst hij
        have hreg : fieldReg g = fieldReg f := (slotGet_regSlot hj).symm.trans (slotGet_regSlot hi)
        have hword : wordGet (slotSet rb j (bitsSet (wordGet rb j) b v)) j = bitsSet (wordGet rb j) b v :=
          slotGet_slotSet_same rb j _
        rw [hword, bitsGet_bitsSet_apart _ (row_inside h hd).2 (rows_apart h hne hreg hb hd)]
      · have hword : wordGet (slotSet rb i (bitsSet (wordGet rb i) b v)) j = wordGet rb j :=
          slotGet_slotSet_ne rb i j _ (Ne.symm hij)
        rw [hword]

/-- Bit `j` of word `i` is none of the field's. -/
def OutsideField (c : Config) (i : Fin 10) (j : Nat) (f : Field) : Prop :=
  ∀ b, regSlot c (fieldReg f) = some i → fieldBits c f = some b → j < b.lo ∨ b.lo + b.width ≤ j

/-- A field write changes no bit outside its field. -/
theorem fieldSet_getLsbD_outside (rb : RegBlock) (v : Nat) {i : Fin 10} {j : Nat} (hout : OutsideField c i j f) :
    (wordGet (fieldSet c rb f v) i).getLsbD j = (wordGet rb i).getLsbD j := by
  by_cases hj : j < 32
  case neg => rw [BitVec.getLsbD_of_ge _ _ (by omega), BitVec.getLsbD_of_ge _ _ (by omega)]
  case pos =>
    cases hslot : regSlot c (fieldReg f) with
    | none => simp [fieldSet, hslot]
    | some k =>
      cases hb : fieldBits c f with
      | none => simp [fieldSet, hslot, hb]
      | some b =>
        by_cases hik : i = k
        · subst hik
          rw [wordGet_fieldSet_same rb v hslot hb, bitsSet_getLsbD_outside _ b v hj (hout b hslot hb)]
        · rw [wordGet_fieldSet_ne rb v hslot hb hik]

/-! ### A list of field writes -/

/-- The block after the writes in their order; a field with no value is left alone. -/
def setFields (c : Config) (rb : RegBlock) : List (Field × Option Nat) → RegBlock
  | [] => rb
  | (f, v) :: rest => setFields c (setCount c f v rb) rest

/-- The writes of a transaction (R104, R111). -/
def transactWrites (c : Config) (d : Descriptor) : List (Field × Option Nat) :=
  [(.rdTranCnt, d.rdCnt), (.dummyCnt, d.dmCnt), (.wrTranCnt, d.wrCnt), (.transMode, some (modeCode c.modes d.mode))]

/-- The writes of RESET (R120). -/
def resetWrites (c : Config) : List (Field × Option Nat) :=
  [(.spiRst, some 1), (.rxFifoRst, some 1), (.txFifoRst, some 1), (.transMode, some (modeCode c.modes .noData))]

theorem mem_transactWrites {d : Descriptor} :
    f ∈ (transactWrites c d).map Prod.fst ↔ f = .transMode ∨ f = .wrTranCnt ∨ f = .rdTranCnt ∨ f = .dummyCnt := by
  simp only [transactWrites, List.map_cons, List.map_nil, List.mem_cons, List.not_mem_nil, or_false]
  tauto

theorem mem_resetWrites :
    f ∈ (resetWrites c).map Prod.fst ↔ f = .spiRst ∨ f = .rxFifoRst ∨ f = .txFifoRst ∨ f = .transMode := by
  simp only [resetWrites, List.map_cons, List.map_nil, List.mem_cons, List.not_mem_nil, or_false]

theorem transactWrites_nodup (c : Config) (d : Descriptor) : ((transactWrites c d).map Prod.fst).Nodup := by
  simp [transactWrites]

theorem resetWrites_nodup (c : Config) : ((resetWrites c).map Prod.fst).Nodup := by simp [resetWrites]

theorem transactBlock_eq (c : Config) (d : Descriptor) :
    transactBlock c d = setFields c (defaultsBlock c) (transactWrites c d) := rfl

theorem resetBlock_eq (c : Config) : resetBlock c = setFields c (defaultsBlock c) (resetWrites c) := rfl

theorem fieldGet_setCount_ne (h : c.wellFormed = true) (rb : RegBlock) (v : Option Nat) (hne : g ≠ f) :
    fieldGet c (setCount c f v rb) g = fieldGet c rb g := by
  cases v with
  | none => rfl
  | some n => exact fieldGet_fieldSet_ne h rb n hne

theorem fieldGet_setFields_of_unwritten (h : c.wellFormed = true) {ws : List (Field × Option Nat)}
    (hg : g ∉ ws.map Prod.fst) : ∀ rb, fieldGet c (setFields c rb ws) g = fieldGet c rb g := by
  induction ws with
  | nil => exact fun _ => rfl
  | cons x rest ih =>
    intro rb
    rw [List.map_cons, List.mem_cons, not_or] at hg
    rw [setFields, ih hg.2, fieldGet_setCount_ne h rb _ hg.1]

/-- A field written once holds its value cut to its width, or, with no value, what it held. -/
theorem fieldGet_setFields_of_written (h : c.wellFormed = true) {i : Fin 10} {b : FieldBits} (hf : Placed c f i b)
    {v : Option Nat} {ws : List (Field × Option Nat)} (hmem : (f, v) ∈ ws) (hnodup : (ws.map Prod.fst).Nodup) :
    ∀ rb, fieldGet c (setFields c rb ws) f = v.elim (fieldGet c rb f) (· % 2 ^ b.width) := by
  induction ws with
  | nil => exact absurd hmem List.not_mem_nil
  | cons x rest ih =>
    intro rb
    obtain ⟨hx, hrest⟩ := List.nodup_cons.1 hnodup
    rw [setFields]
    rcases List.mem_cons.1 hmem with rfl | hmem
    · rw [fieldGet_setFields_of_unwritten h hx]
      cases v with
      | none => rfl
      | some n => exact fieldGet_fieldSet_same rb n hf.slot hf.bits hf.inside
    · have hne : f ≠ x.1 := fun e => hx (e ▸ List.mem_map_of_mem hmem)
      rw [ih hmem hrest, fieldGet_setCount_ne h rb _ hne]

theorem setFields_getLsbD_outside {i : Fin 10} {j : Nat} {ws : List (Field × Option Nat)}
    (hout : ∀ f ∈ ws.map Prod.fst, OutsideField c i j f) :
    ∀ rb, (wordGet (setFields c rb ws) i).getLsbD j = (wordGet rb i).getLsbD j := by
  induction ws with
  | nil => exact fun _ => rfl
  | cons x rest ih =>
    obtain ⟨f, v⟩ := x
    obtain ⟨hf, hrest⟩ := List.forall_mem_cons.1 hout
    intro rb
    rw [setFields, ih hrest]
    cases v with
    | none => rfl
    | some n => exact fieldSet_getLsbD_outside rb n hf

/-! ### The two blocks -/

section Block

variable (h : c.wellFormed = true) {ws : List (Field × Option Nat)} (hnodup : (ws.map Prod.fst).Nodup)
include h hnodup

/-- A written mode's code is read back whole. -/
theorem fieldGet_setFields_mode {m : Mode} (hmem : (.transMode, some (modeCode c.modes m)) ∈ ws) (rb : RegBlock) :
    fieldGet c (setFields c rb ws) .transMode = modeCode c.modes m := by
  obtain ⟨i, b, hplaced⟩ := usedField_placed (f := .transMode) h (by decide)
  rw [fieldGet_setFields_of_written h hplaced hmem hnodup]
  exact Nat.mod_eq_of_lt (modeCode_fits h hplaced.bits m)

/-- A reset bit that is written 1 reads 1: its field is at least one bit wide (GK1). -/
theorem fieldGet_setFields_one (hf : f ∈ usedFields) (hmem : (f, some 1) ∈ ws) (rb : RegBlock) :
    fieldGet c (setFields c rb ws) f = 1 := by
  obtain ⟨i, b, hplaced⟩ := usedField_placed h hf
  rw [fieldGet_setFields_of_written h hplaced hmem hnodup]
  exact Nat.mod_eq_of_lt (Nat.one_lt_two_pow (Nat.one_le_iff_ne_zero.1 (row_inside h hplaced.bits).1))

end Block

end Sys2Proof.Proofs.TransactionBlock

open Sys2Proof Sys2Proof.Machine Sys2Proof.Proofs.DefaultBridge Sys2Proof.Proofs.TransactionBlock in
/-- Settles O15: both blocks are field writes over the defaults, each field written at most once. -/
theorem transactionBlockContents : Obligations.TransactionBlockContents := by
  unfold Obligations.TransactionBlockContents
  refine fun c hc => ⟨fun d => ?_, ?_⟩
  · have hnodup := transactWrites_nodup c d
    rw [transactBlock_eq]
    refine ⟨?_, fun f b cnt hb hcount => ?_, fun f hmode hwr hrd hdm => ?_, fun i j hout => ?_⟩
    · exact fieldGet_setFields_mode hc hnodup (by simp [transactWrites]) _
    · have hwritten : (f, cnt) ∈ transactWrites c d ∧ f ∈ usedFields := by
        rcases hcount with ⟨rfl, rfl⟩ | ⟨rfl, rfl⟩ | ⟨rfl, rfl⟩ <;> simp [transactWrites, usedFields]
      obtain ⟨i, b', hplaced⟩ := usedField_placed hc hwritten.2
      obtain rfl : b = b' := Option.some.inj (hb.symm.trans hplaced.bits)
      rw [fieldGet_setFields_of_written hc hplaced hwritten.1 hnodup]
      cases cnt <;> rfl
    · exact fieldGet_setFields_of_unwritten hc (by simp [mem_transactWrites, hmode, hwr, hrd, hdm]) _
    · exact setFields_getLsbD_outside (fun f hf b => hout f b (mem_transactWrites.1 hf)) _
  · have hnodup := resetWrites_nodup c
    rw [resetBlock_eq]
    refine ⟨?_, ?_, ?_, ?_, fun f hspi hrx htx hmode => ?_, fun i j hout => ?_⟩
    · exact fieldGet_setFields_one hc hnodup (by decide) (by simp [resetWrites]) _
    · exact fieldGet_setFields_one hc hnodup (by decide) (by simp [resetWrites]) _
    · exact fieldGet_setFields_one hc hnodup (by decide) (by simp [resetWrites]) _
    · exact fieldGet_setFields_mode hc hnodup (by simp [resetWrites]) _
    · exact fieldGet_setFields_of_unwritten hc (by simp [mem_resetWrites, hspi, hrx, htx, hmode]) _
    · exact setFields_getLsbD_outside (fun f hf b => hout f b (mem_resetWrites.1 hf)) _
end

section
/-! The answers of a transaction (42_transaction_engine.md R106, R113, R114): what the READ_DATA answer's length and the
read-back Status word decide, and the empty transaction, which asks for neither. -/

namespace Sys2Proof.Proofs.TransactionAnswers

open Sys2Proof.Machine Sys2Proof.Proofs.RegisterBlock Sys2Proof.Proofs.BlockBytes

variable {s : State} {a : ReadAnswer} {c : Word} {p : List Byte}

theorem proceed_gotData (h : s.seq = .gotData a) : proceed s = afterData a s := by rw [proceed, h]

theorem proceed_gotBlock (h : s.seq = .gotBlock a) : proceed s = afterBlock a s := by rw [proceed, h]

/-! ### The READ_DATA answer (R113) -/

theorem afterData_of_expected (h : checkRead a = .ok (c, p)) (hlen : p.length = expectedBytes s.cfg s.rb) :
    afterData a s = { s with data := p, seq := readRegisterLine } := by
  simp only [afterData, h]
  exact if_neg (not_not.2 hlen)

theorem afterData_of_unexpected (h : checkRead a = .ok (c, p)) (hlen : p.length ≠ expectedBytes s.cfg s.rb) :
    afterData a s = raiseErr (.lengthAccounting (expectedBytes s.cfg s.rb) p.length) s := by
  simp only [afterData, h]
  exact if_pos hlen

/-! ### The READ_REGISTER answer (R114) -/

theorem afterBlock_of_length_ne (h : checkRead a = .ok (c, p)) (hlen : p.length ≠ 40) :
    afterBlock a s = raiseErr (.registerBlockLength p.length) s := by
  simp only [afterBlock, h, deserialize_of_length_ne hlen]

/-- Of a whole block the Status word alone is looked at. -/
theorem afterBlock_of_block {rb : RegBlock} (h : checkRead a = .ok (c, serialize rb)) :
    afterBlock a s = if statusWord s.cfg rb = s.cfg.sentinel then returnTransact s.data s
      else raiseErr (.statusMismatch (statusWord s.cfg rb)) s := by
  simp only [afterBlock, h, deserialize_of_length (serialize_length rb), blockOfBytes_serialize, statusOk, decide_eq_true_eq]

end Sys2Proof.Proofs.TransactionAnswers

open Sys2Proof Sys2Proof.Machine in
/-- Settles O22: the accepting step finds the transaction empty and goes to its emission. -/
theorem emptyTransactReturnsAtOnce : Obligations.EmptyTransactReturnsAtOnce := by
  unfold Obligations.EmptyTransactReturnsAtOnce
  exact fun s d hidle => congrArg Host.Outcome.next (accept_idle s hidle)

open Sys2Proof Sys2Proof.Machine Sys2Proof.Proofs.PacketCodec Sys2Proof.Proofs.TransactionAnswers in
/-- Settles O29: behind the read the codec's check comes first, then the payload's length against RdTranCnt + 1. -/
theorem readDataAnswerLength : Obligations.ReadDataAnswerLength := by
  unfold Obligations.ReadDataAnswerLength
  refine fun s => ⟨rfl, fun a hseq => ⟨fun c p hread hlen => ?_, fun c p hread hlen => ?_, fun e hread => ?_⟩⟩
  · rw [proceed_gotData hseq, afterData_of_expected hread hlen]
    rfl
  · rw [proceed_gotData hseq, afterData_of_unexpected hread hlen]
  · exact proceed_of_read_error (.inl hseq) hread

open Sys2Proof Sys2Proof.Machine Sys2Proof.Proofs.PacketCodec Sys2Proof.Proofs.TransactionAnswers in
/-- Settles O30: behind the read the codec's check comes first, then the payload's length, then the Status word. -/
theorem statusWordDecides : Obligations.StatusWordDecides := by
  unfold Obligations.StatusWordDecides
  refine fun s => ⟨rfl, fun a hseq => ⟨fun c p hread hlen => ?_, fun c rb hread => ⟨fun hok => ?_, fun hbad => ?_⟩,
    fun e hread => ?_⟩⟩
  · rw [proceed_gotBlock hseq, afterBlock_of_length_ne hread hlen]
  · rw [proceed_gotBlock hseq, afterBlock_of_block hread, if_pos hok]
  · rw [proceed_gotBlock hseq, afterBlock_of_block hread, if_neg hbad]
  · exact proceed_of_read_error (.inr hseq) hread
end

section
/-! Whole transactions over a scripted transport (42_transaction_engine.md R104, R112 to R115), under any configuration:
exchange by exchange, the exact state that the answers lead to. -/

namespace Sys2Proof.Proofs.ScriptedRuns

open Sys2Proof.Machine Sys2Proof.Safety Sys2Proof.Proofs.Steps Sys2Proof.Proofs.Sequencer Sys2Proof.Proofs.ReferenceRuns
  Sys2Proof.Proofs.Encoding

variable {s : State} {ws : List WriteAnswer} {rs : List ReadAnswer}

/-! ### The script -/

/-- `s` with the calls `new` made (newest first), behind which `ws` and `rs` are left of the script. -/
def called (s : State) (ws : List WriteAnswer) (rs : List ReadAnswer) (new : List Event) : State :=
  { s with
    env := { s.env with oracle := { s.env.oracle with writes := ws, reads := rs } }
    events := new ++ s.events }

/-- What is left of the script stays readable while the block goes on inside its operation. -/
theorem scripted_of_env {ws' : List WriteAnswer} {rs' : List ReadAnswer} (h : Scripted s ws rs) {t : State}
    (hcfg : t.cfg = s.cfg) (hport : t.port = s.port) (hsession : t.session = s.session)
    (henv : t.env = (called s ws' rs' []).env) : Scripted t ws' rs' where
  port := hport.trans h.port
  session := hsession.trans h.session
  maxPacket := hcfg ▸ h.maxPacket
  kind := by rw [henv]; exact h.kind
  writes := by rw [henv]; rfl
  reads := by rw [henv]; rfl

theorem answerWrite_scripted {a : WriteAnswer} (h : Scripted s (a :: ws) rs) (raw : List Byte) :
    answerWrite raw s = (a, (called s ws rs []).env) := by
  have hopen : s.session ≠ .closed := by rw [h.session]; decide
  have hunbounded : beyondMaxPacket s.cfg raw.length = false := by rw [beyondMaxPacket, h.maxPacket]
  rw [answerWrite, if_neg hopen, hunbounded, h.kind]
  simp only [oracleWrite, h.writes, called, ← h.reads]
  rfl

theorem answerRead_scripted {a : ReadAnswer} (h : Scripted s ws (a :: rs)) (m : Nat) :
    answerRead m s = (a, (called s ws rs []).env) := by
  have hopen : s.session ≠ .closed := by rw [h.session]; decide
  rw [answerRead, if_neg hopen, h.kind]
  simp only [oracleRead, h.reads, called, ← h.writes]

/-! ### One call -/

/-- Behind a packet that the script takes whole the next line stands. -/
theorem goLine_sendPacket_scripted {c : Word} {p : List Byte} {n : Nat} (h : Scripted s (.count n :: ws) rs) (next : Line) :
    goLine next (sendPacket c p next s) =
      goLine next (called s ws rs [.wrote (encodePacket c p) s.cfg.timeoutMs (.count n)]) := by
  rw [Acceptance.sendPacket_eq, answerWrite_scripted h]
  cases next <;> rfl

theorem packetLine_leadsTo {c : Word} {next : Line} {i : Instr} (h : Scripted s (.count 8 :: ws) rs)
    (hq : s.seq = .packet (encodePacket c [])) (hi : decodeWire (encodePacket c []) = .ok i)
    (hexec : ∀ t, exec i t = .next (sendPacket c [] next t)) :
    LeadsTo 1 s (goLine next (called s ws rs [.wrote (encodePacket c []) s.cfg.timeoutMs (.count 8)])) := by
  have htaken : takesPacket (encodePacket c []) s := congrArg Prod.fst (answerWrite_scripted h _)
  have hstep : step s = .next (sendPacket c [] next s) := by
    rw [step_no_input h.port, proceed_of_atLine (by rw [hq]; rfl), runFetched_instr_line (.inl ⟨_, hq, rfl⟩) hi, hexec]
  refine ⟨_, runSteps_one hstep, h.port, ?_⟩
  rw [Acceptance.proceed_sendPacket_taken next htaken, goLine_sendPacket_scripted h]

/-- A read that the script answers. -/
theorem recvPacket_scripted {a : ReadAnswer} (h : Scripted s ws (a :: rs)) (n : Nat) (behind : ReadAnswer → Seq) :
    recvPacket n behind s =
      { called s ws rs [.readUpTo (8 + n) s.cfg.timeoutMs a] with seq := behind a } := by
  simp only [recvPacket, usbRead, answerRead_scripted h]
  rfl

theorem step_recvData (hport : s.port = []) (hq : s.seq = .recvData) : step s = .next (recvDataStep s) := by
  rw [step_no_input hport, proceed_of_atLine (by rw [hq]; rfl), fetchLine, hq]
  rfl

theorem step_recvBlock (hport : s.port = []) (hq : s.seq = .recvBlock) : step s = .next (recvBlockStep s) := by
  rw [step_no_input hport, proceed_of_atLine (by rw [hq]; rfl), fetchLine, hq]
  rfl

/-! ### The three exchanges -/

/-- At the line behind a transaction's SET_REGISTER packet (R112). -/
def behindSetRegister (s : State) (f : Frame) (ws : List WriteAnswer) (rs : List ReadAnswer) : State :=
  { called s ws rs [.wrote (setPacket s.cfg f) s.cfg.timeoutMs (.count (setPacket s.cfg f).length)] with
    td := describe f.wbytes.length f.rdLen f.dummy
    rb := transactBlock s.cfg (describe f.wbytes.length f.rdLen f.dummy)
    data := []
    seq := if f.rdLen ≠ 0 then readDataLine else readRegisterLine }

/-- At the line behind the READ_DATA exchange that was answered with `d` (R102, R113). -/
def behindReadData (s : State) (d : List Byte) (ws : List WriteAnswer) (rs : List ReadAnswer) : State :=
  { called s ws rs [.readUpTo (8 + d.length) s.cfg.timeoutMs (dataAnswer d),
      .wrote readDataPacket s.cfg.timeoutMs (.count 8)] with
    data := d
    seq := readRegisterLine }

theorem behindSetRegister_scripted {ws' : List WriteAnswer} {rs' : List ReadAnswer} (h : Scripted s ws rs) (f : Frame) :
    Scripted (behindSetRegister s f ws' rs') ws' rs' :=
  scripted_of_env h rfl rfl rfl rfl

theorem behindReadData_scripted {ws' : List WriteAnswer} {rs' : List ReadAnswer} (h : Scripted s ws rs) (d : List Byte) :
    Scripted (behindReadData s d ws' rs') ws' rs' :=
  scripted_of_env h rfl rfl rfl rfl

theorem setRegister_leadsTo_scripted {f : Frame} (h : Scripted s (.count (setPacket s.cfg f).length :: ws) rs)
    (hq : s.seq = .frame f) (hempty : frameEmpty f = false) (hlong : frameTooLong f = false) :
    LeadsTo 1 s (behindSetRegister s f ws rs) := by
  have htaken : takesPacket (setPacket s.cfg f) s := congrArg Prod.fst (answerWrite_scripted h _)
  have hstep : step s = .next (sendTransact f s) := by
    rw [step_no_input h.port, proceed_of_atLine (by rw [hq]; rfl), runFetched_frame s hq, runTransact_of_ok hempty hlong]
  refine ⟨_, runSteps_one hstep, h.port, ?_⟩
  rw [proceed_sendTransact_taken htaken, goLine_afterSet, sendTransact_eq, answerWrite_scripted h]
  rfl

theorem readData_leadsTo_scripted {d : List Byte} (h : Scripted s (.count 8 :: ws) (dataAnswer d :: rs))
    (hq : s.seq = readDataLine) (hlen : d.length = expectedBytes s.cfg s.rb) (hshort : d.length < payloadLimit) :
    LeadsTo 2 s (behindReadData s d ws rs) := by
  obtain ⟨t, ht⟩ : ∃ t, t = goLine .recvData
      (called s ws (dataAnswer d :: rs) [.wrote readDataPacket s.cfg.timeoutMs (.count 8)]) := ⟨_, rfl⟩
  have hlead : LeadsTo 1 s t := ht ▸ packetLine_leadsTo h hq decodeWire_readData fun _ => rfl
  have hscript : Scripted t ws (dataAnswer d :: rs) := by
    rw [ht]; exact scripted_of_env h rfl rfl rfl rfl
  have hexpected : expectedBytes t.cfg t.rb = d.length := by rw [hlen, ht]; rfl
  have hread : recvDataStep t =
      { called t ws rs [.readUpTo (8 + d.length) t.cfg.timeoutMs (dataAnswer d)] with seq := .gotData (dataAnswer d) } := by
    rw [recvDataStep, recvPacket_scripted hscript, hexpected]
  refine hlead.trans ⟨_, runSteps_one (step_recvData hscript.port (by rw [ht]; rfl)), hscript.port, ?_⟩
  rw [TransactionAnswers.proceed_gotData (congrArg State.seq hread),
    afterData_of_length (recvDataStep t) hexpected.symm hshort, hread, ht]
  rfl

/-- The READ_REGISTER exchange, up to its read (R103, R114). -/
theorem readRegister_runs_scripted {back : RegBlock} (h : Scripted s (.count 8 :: ws) (blockAnswer back :: rs))
    (hq : s.seq = readRegisterLine) :
    runSteps 2 s = .next { called s ws rs [.readUpTo 48 s.cfg.timeoutMs (blockAnswer back),
        .wrote readRegisterPacket s.cfg.timeoutMs (.count 8)] with
      seq := .gotBlock (blockAnswer back) } := by
  obtain ⟨t, ht⟩ : ∃ t, t = goLine .recvBlock
      (called s ws (blockAnswer back :: rs) [.wrote readRegisterPacket s.cfg.timeoutMs (.count 8)]) := ⟨_, rfl⟩
  have hlead : LeadsTo 1 s t := ht ▸ packetLine_leadsTo h hq decodeWire_readRegister fun _ => rfl
  have hscript : Scripted t ws (blockAnswer back :: rs) := by
    rw [ht]; exact scripted_of_env h rfl rfl rfl rfl
  rw [hlead.runSteps 0, runSteps_one (step_recvBlock hscript.port (by rw [ht]; rfl)), recvBlockStep,
    recvPacket_scripted hscript, ht]
  rfl

/-! ### Whole transactions (R104) -/

/-- The state behind the last call of a transaction with the data `d`, before the answer to it is looked at. -/
def behindTransaction (s : State) (f : Frame) (d : List Byte) (back : RegBlock) (ws : List WriteAnswer)
    (rs : List ReadAnswer) : State :=
  { called s ws rs (transactionCalls s.cfg f d back).reverse with
    td := describe f.wbytes.length f.rdLen f.dummy
    rb := transactBlock s.cfg (describe f.wbytes.length f.rdLen f.dummy)
    data := d
    seq := .gotBlock (blockAnswer back) }

theorem transactionCalls_of_write {f : Frame} (hrd : f.rdLen = 0) (c : Config) (d : List Byte) (back : RegBlock) :
    transactionCalls c f d back =
      [.wrote (setPacket c f) c.timeoutMs (.count (setPacket c f).length), .wrote readRegisterPacket c.timeoutMs (.count 8),
        .readUpTo 48 c.timeoutMs (blockAnswer back)] := by
  rw [transactionCalls, if_neg (not_not.2 hrd)]
  rfl

theorem transactionCalls_of_read {f : Frame} (hrd : f.rdLen ≠ 0) (c : Config) (d : List Byte) (back : RegBlock) :
    transactionCalls c f d back =
      [.wrote (setPacket c f) c.timeoutMs (.count (setPacket c f).length), .wrote readDataPacket c.timeoutMs (.count 8),
        .readUpTo (8 + d.length) c.timeoutMs (dataAnswer d), .wrote readRegisterPacket c.timeoutMs (.count 8),
        .readUpTo 48 c.timeoutMs (blockAnswer back)] := by
  rw [transactionCalls, if_pos hrd]
  rfl

section Transaction

variable {f : Frame} {back : RegBlock} (hq : s.seq = .frame f) (hlong : frameTooLong f = false)
include hq hlong

theorem write_transaction_scripted (hempty : frameEmpty f = false) (hrd : f.rdLen = 0)
    (h : Scripted s (.count (setPacket s.cfg f).length :: .count 8 :: ws) (blockAnswer back :: rs)) :
    runSteps 3 s = .next (behindTransaction s f [] back ws rs) := by
  have hset := setRegister_leadsTo_scripted h hq hempty hlong
  have hline : (behindSetRegister s f (.count 8 :: ws) (blockAnswer back :: rs)).seq = readRegisterLine :=
    if_neg (not_not.2 hrd)
  rw [hset.runSteps 1, readRegister_runs_scripted (behindSetRegister_scripted h f) hline]
  rw [behindTransaction, transactionCalls_of_write hrd]
  rfl

theorem read_transaction_scripted {d : List Byte} (hrd : f.rdLen ≠ 0)
    (hlen : d.length = expectedBytes s.cfg (transactBlock s.cfg (describe f.wbytes.length f.rdLen f.dummy)))
    (hshort : d.length < payloadLimit)
    (h : Scripted s (.count (setPacket s.cfg f).length :: .count 8 :: .count 8 :: ws)
      (dataAnswer d :: blockAnswer back :: rs)) :
    runSteps 5 s = .next (behindTransaction s f d back ws rs) := by
  have hempty : frameEmpty f = false := by rw [frameEmpty, beq_false_of_ne hrd, Bool.and_false]
  have hset := setRegister_leadsTo_scripted h hq hempty hlong
  have hline : (behindSetRegister s f (.count 8 :: .count 8 :: ws) (dataAnswer d :: blockAnswer back :: rs)).seq =
      readDataLine := if_pos hrd
  have hscript := behindSetRegister_scripted (ws' := .count 8 :: .count 8 :: ws)
    (rs' := dataAnswer d :: blockAnswer back :: rs) h f
  have hdata := readData_leadsTo_scripted hscript hline hlen hshort
  rw [(hset.trans hdata).runSteps 1, readRegister_runs_scripted (behindReadData_scripted hscript d) rfl]
  rw [behindTransaction, transactionCalls_of_read hrd]
  rfl

end Transaction

/-- A block with the sentinel behind the last call: the transaction returns its data (R114, R115). -/
theorem proceed_behindTransaction (f : Frame) (d : List Byte) {back : RegBlock}
    (h : statusWord s.cfg back = s.cfg.sentinel) :
    proceed (behindTransaction s f d back ws rs) = returnTransact d (behindTransaction s f d back ws rs) :=
  afterBlock_of_sentinel (behindTransaction s f d back ws rs) h

/-! ### The TRANSACT request -/

theorem returnTransact_of_transact {u : State} (v : List Byte) (hscope : u.scope = .closed)
    (hop : ∃ w m k, currentOp u = some (.transact w m k)) : returnTransact v u = { u with seq := .emit (.ok v) } := by
  obtain ⟨w, m, k, hop⟩ := hop
  have houtside : returnTransact v u = returnOutside v u := by rw [returnTransact, hscope]
  rw [houtside, returnOutside, hop]
  rfl

theorem step_of_emit {u : State} {r : Result} (hport : u.port = []) (hq : (proceed u).seq = .emit r) :
    step u = .next (emitStep r (proceed u)) := by
  rw [step_no_input hport, fetchLine, hq]
  rfl

/-- A TRANSACT request ends with its transaction: its bytes are emitted by the next step (R104, R39). -/
theorem transact_emits {u : State} {v : List Byte} (hreturn : proceed u = returnTransact v u) (hport : u.port = [])
    (hscope : u.scope = .closed) (hop : ∃ w m k, currentOp u = some (.transact w m k)) :
    proceed u = { u with seq := .emit (.ok v) } ∧
    ∃ t, step u = .next t ∧ t.seq = .idle ∧ t.result = some (.ok v) ∧ t.events = u.events ∧ t.env = u.env := by
  have hline : proceed u = { u with seq := .emit (.ok v) } := hreturn.trans (returnTransact_of_transact v hscope hop)
  refine ⟨hline, emitStep (.ok v) (proceed u), step_of_emit hport (by rw [hline]), rfl, rfl, ?_, ?_⟩
  · rw [emitStep_events, proceed_events]
  · rw [emitStep_env, proceed_env]

end Sys2Proof.Proofs.ScriptedRuns

open Sys2Proof Sys2Proof.Machine Sys2Proof.Safety Sys2Proof.Proofs.ScriptedRuns in
/-- Settles O34, exchange by exchange: each answer of the script leads to the line of the next call. -/
theorem transactRunsToItsReturn : Obligations.TransactRunsToItsReturn := by
  unfold Obligations.TransactRunsToItsReturn
  intro s f d back ws rs hq hempty hlong hsentinel td rb set tm
  refine ⟨fun hrd h => ?_, fun hrd hlen hshort h => ?_⟩
  · have hreturn := proceed_behindTransaction (ws := ws) (rs := rs) f [] hsentinel
    refine ⟨_, write_transaction_scripted hq hlong hempty hrd h, hreturn, ?_, transact_emits hreturn h.port⟩
    rw [behindTransaction, transactionCalls_of_write hrd]
    rfl
  · have hreturn := proceed_behindTransaction (ws := ws) (rs := rs) f d hsentinel
    refine ⟨_, read_transaction_scripted hq hlong hrd hlen hshort h, hreturn, ?_, transact_emits hreturn h.port⟩
    rw [behindTransaction, transactionCalls_of_read hrd]
    rfl
end

section
/-! The lines of the write-enable scope (43_flash_controller.md R124 to R127): where the return of a transaction leads from each
position of the scope. -/

namespace Sys2Proof.Proofs.ScopeLines

open Sys2Proof.Machine Sys2Proof.Proofs.Acceptance

variable {s : State}

/-! ### A transaction's return, by SCOPE -/

theorem returnTransact_closed (v : List Byte) (h : s.scope = .closed) : returnTransact v s = returnOutside v s := by
  rw [returnTransact, h]

theorem returnTransact_body (v : List Byte) (h : s.scope = .body) : returnTransact v s = startPoll s := by
  rw [returnTransact, h]

theorem returnTransact_polling (v : List Byte) (h : s.scope = .polling) : returnTransact v s = pollAnswer v s := by
  rw [returnTransact, h]

theorem returnTransact_closing (v : List Byte) (h : s.scope = .closing) : returnTransact v s = closeScope s := by
  rw [returnTransact, h]

/-! ### The body behind WREN (R124, R125) -/

theorem enterBody_of_fits {w : List Byte} (hbody : scopeBody s = ⟨w, 0, 0⟩)
    (hfits : 40 + (w.length + paddingOf w.length) < 2 ^ 32) :
    enterBody s = { s with scope := .body, pendingErr := none, seq := .frame ⟨w, 0, 0⟩ } := by
  have hshort : frameTooLong ⟨w, 0, 0⟩ = false := by
    rw [Bool.eq_false_iff, Ne, frameTooLong_iff]
    exact Nat.not_le.2 hfits
  rw [enterBody, hbody, issueFrame, hshort]
  rfl

/-- A body whose packet cannot be encoded raises inside the scope, so its polls start (R96, log 28). -/
theorem enterBody_of_long {w : List Byte} (hbody : scopeBody s = ⟨w, 0, 0⟩)
    (hlong : 2 ^ 32 ≤ 40 + (w.length + paddingOf w.length)) :
    enterBody s =
      { s with scope := .polling, pendingErr := some (.invalidArgument (.wbytes w)), seq := .frame rdsrFrame } := by
  rw [enterBody, hbody, issueFrame, if_pos ((frameTooLong_iff ⟨w, 0, 0⟩).2 hlong)]
  exact raiseErr_body _ rfl

theorem returnOutside_erase {a : Nat} (v : List Byte) (hop : currentOp s = some (.erase64kb a)) :
    returnOutside v s = { s with scope := .body, pendingErr := none, seq := .frame (blockEraseFrame a) } := by
  have hbody : scopeBody s = blockEraseFrame a := by rw [scopeBody, hop]
  rw [returnOutside, hop]
  exact enterBody_of_fits hbody (by simp [paddingOf])

theorem returnOutside_page {a : Nat} {p : List Byte} (v : List Byte)
    (hop : currentOp s = some (.programPage a p) ∨
      ∃ p0 n a0, currentOp s = some (.program a0 p0 n) ∧ a = a0 + s.k * n ∧ p = programChunk p0 n s.k) :
    returnOutside v s = enterBody s ∧ scopeBody s = pageProgramFrame a p := by
  rcases hop with hop | ⟨p0, n, a0, hop, rfl, rfl⟩ <;> rw [returnOutside, scopeBody, hop] <;> exact ⟨rfl, rfl⟩

/-! ### A poll's answer (R126) -/

theorem pollAnswer_of_wip {b : Byte} (h : b.getLsbD 0 = true) :
    pollAnswer [b] s = { s with pollByte := b, seq := .frame rdsrFrame } :=
  if_neg (by rw [wipClear, h]; decide)

theorem pollAnswer_of_done {b : Byte} (h : b.getLsbD 0 = false) :
    pollAnswer [b] s = { s with pollByte := b, scope := .closing, seq := .frame wrdiFrame } :=
  if_pos (decide_eq_true h)

/-! ### The return of WRDI (R124, R127) -/

theorem closeScope_of_pending {e : Err} (h : s.pendingErr = some e) :
    closeScope s = { s with scope := .closed, pendingErr := none, seq := .emit (.err e) } := by
  rw [closeScope, h]
  rfl

theorem closeScope_of_program {a n : Nat} {p : List Byte} (h : s.pendingErr = none)
    (hop : currentOp s = some (.program a p n)) :
    closeScope s = programLoop a p n (s.k + 1) { s with scope := .closed } := by
  rw [closeScope, h]
  simp only [hop]

theorem closeScope_of_single (h : s.pendingErr = none) {a : Nat} {p : List Byte}
    (hop : currentOp s = some (.erase64kb a) ∨ currentOp s = some (.programPage a p)) :
    closeScope s = { s with scope := .closed, seq := .emit (.ok []) } := by
  rw [closeScope, h]
  rcases hop with hop | hop <;> simp only [hop] <;> rfl

end Sys2Proof.Proofs.ScopeLines

open Sys2Proof Sys2Proof.Machine Sys2Proof.Proofs.ScopeLines in
/-- Settles O32: SCOPE chooses the line behind a return, and error entry's. -/
theorem writeEnableScopeLines : Obligations.WriteEnableScopeLines := by
  unfold Obligations.WriteEnableScopeLines
  intro s e v
  refine ⟨fun hclosed a hop => ?_, fun hclosed a p w hpage => ?_, raiseErr_outside s,
    fun hbody => ⟨returnTransact_body v hbody, raiseErr_body s hbody⟩, fun hpolling b => ?_, fun hclosing => ?_,
    fun hexit => ?_⟩
  · rw [returnTransact_closed v hclosed, returnOutside_erase v hop]
    rfl
  · obtain ⟨hop, rfl⟩ : (currentOp s = some (.programPage a p) ∨ ∃ p0 n a0, currentOp s = some (.program a0 p0 n) ∧
        a = a0 + s.k * n ∧ p = programChunk p0 n s.k) ∧ w = opPageProgram :: (be24 a ++ p) := by
      rcases hpage with ⟨hop, hw⟩ | ⟨p0, n, a0, hop, ha, hp, hw⟩
      · exact ⟨.inl hop, hw⟩
      · exact ⟨.inr ⟨p0, n, a0, hop, ha, hp⟩, hw⟩
    obtain ⟨henter, hbody⟩ := returnOutside_page v hop
    rw [returnTransact_closed v hclosed, henter]
    exact ⟨enterBody_of_fits hbody, enterBody_of_long hbody⟩
  · rw [returnTransact_polling _ hpolling]
    exact ⟨pollAnswer_of_wip, pollAnswer_of_done⟩
  · rw [returnTransact_closing v hclosing]
    exact ⟨fun a p hop hnone => closeScope_of_single hnone hop, fun e0 => closeScope_of_pending⟩
  · rw [raiseErr_exit s hexit]
    cases s.pendingErr <;> rfl
end

section
/-! The chunks of PROGRAM and of READ_DATA (43_flash_controller.md R123, R130): what the chunks of a byte string hold together, and
how the two loops go from chunk to chunk. -/

namespace Sys2Proof.Proofs.Chunks

open Sys2Proof.Machine Sys2Proof.Safety Sys2Proof.Proofs.Acceptance Sys2Proof.Proofs.ScopeLines

variable {s : State}

/-! ### The chunks of a byte string -/

/-- A chunk is the page's worth of bytes from its start, or what is left of them. -/
theorem programChunk_eq_take (p : List Byte) (n j : Nat) : programChunk p n j = (p.drop (j * n)).take n := by
  rw [programChunk, slice, List.take_eq_take_iff, List.length_drop, Nat.succ_mul]
  omega

/-- READ_DATA's chunks are those of a PROGRAM in pages of `MAX_XFER` bytes. -/
theorem readChunk_eq_programChunk (d : List Byte) (j : Nat) : readChunk d j = programChunk d maxXfer j := by
  rw [programChunk_eq_take, readChunk, Nat.mul_comm]

theorem take_append_programChunk (p : List Byte) (n k : Nat) :
    p.take (k * n) ++ programChunk p n k = p.take ((k + 1) * n) := by
  rw [programChunk_eq_take, Nat.succ_mul, List.take_add]

theorem flatMap_programChunk (p : List Byte) (n k : Nat) :
    (List.range k).flatMap (programChunk p n) = p.take (k * n) := by
  induction k with
  | zero => rw [Nat.zero_mul, List.take_zero]; rfl
  | succ k ih => rw [List.range_succ, List.flatMap_append, ih, List.flatMap_singleton, take_append_programChunk]

theorem programChunk_length (p : List Byte) (n j : Nat) : (programChunk p n j).length = min n (p.length - j * n) := by
  rw [programChunk_eq_take, List.length_take, List.length_drop]

/-- The chunks of a blank payload are blank. -/
theorem chunkBlank_programChunk {p : List Byte} (h : chunkBlank p = true) (n j : Nat) :
    chunkBlank (programChunk p n j) = true := by
  rw [chunkBlank, List.all_eq_true] at h ⊢
  intro b hb
  rw [programChunk_eq_take] at hb
  exact h b (List.mem_of_mem_drop (List.mem_of_mem_take hb))

theorem chunkBlank_replicate (m : Nat) : chunkBlank (List.replicate m 0xFF#8) = true :=
  List.all_eq_true.2 fun b hb => by rw [List.eq_of_mem_replicate hb]; rfl

/-! ### PROGRAM's loop (R130) -/

theorem le_skipBlank (p : List Byte) (n fuel : Nat) : ∀ k, k ≤ skipBlank p n fuel k := by
  induction fuel with
  | zero => exact Nat.le_refl
  | succ fuel ih =>
    intro k
    rw [skipBlank]
    split_ifs
    · exact (Nat.le_succ k).trans (ih (k + 1))
    · exact Nat.le_refl k

/-- The payload's length is fuel enough from every chunk on, for pages of at least one byte. -/
theorem length_le_fuel_from {n : Nat} (p : List Byte) (k : Nat) (hn : n ≠ 0) : p.length ≤ (k + p.length) * n :=
  (length_le_fuel p hn).trans (Nat.mul_le_mul_right n (by omega))

theorem programLoop_of_chunk {a n k : Nat} {p : List Byte} (ha : a + p.length ≤ 2 ^ 24)
    (hin : skipBlank p n p.length k * n < p.length) :
    programLoop a p n k s = { s with k := skipBlank p n p.length k, seq := .frame wrenFrame } := by
  rcases programLoop_cases s a p n k with ⟨_, e⟩ | ⟨hend, _⟩
  · exact e.trans (beginPage_of_fits (by omega))
  · omega

theorem programLoop_of_end {n k : Nat} {p : List Byte} (a : Nat) (hend : p.length ≤ skipBlank p n p.length k * n) :
    programLoop a p n k s = { s with k := skipBlank p n p.length k, seq := .emit (.ok []) } := by
  rcases programLoop_cases s a p n k with ⟨hin, _⟩ | ⟨_, e⟩
  · omega
  · exact e

/-- In a blank payload the loop finds no chunk to program. -/
theorem programLoop_of_blank {n : Nat} {p : List Byte} (a k : Nat) (hn : n ≠ 0) (hblank : chunkBlank p = true) :
    programLoop a p n k s = { s with k := skipBlank p n p.length k, seq := .emit (.ok []) } := by
  refine programLoop_of_end a (Nat.not_lt.1 fun hin => ?_)
  have hstop := skipBlank_stops_at_chunk p.length k (length_le_fuel_from p k hn) hin
  rw [chunkBlank_programChunk hblank] at hstop
  cases hstop

/-! ### READ_DATA's loop (R123) -/

theorem returnOutside_readData {a n : Nat} (v : List Byte) (hop : currentOp s = some (.readData a n)) :
    returnOutside v s = readLoop a n { s with acc := s.acc ++ v } := by
  rw [returnOutside, hop]

variable {n : Nat} (a : Nat)

theorem readLoop_of_more (h : s.acc.length < n) :
    readLoop a n s =
      { s with seq := .frame (fastReadFrame (a + s.acc.length) (min maxXfer (n - s.acc.length))) } :=
  if_pos h

theorem readLoop_of_whole (h : s.acc.length = n) : readLoop a n s = { s with seq := .emit (.ok s.acc) } := by
  rw [readLoop, if_neg (by omega), if_neg (not_not.2 h)]
  rfl

theorem readLoop_of_excess (hscope : s.scope = .closed) (h : n < s.acc.length) :
    readLoop a n s = { s with seq := .emit (.err (.lengthAccounting n s.acc.length)) } := by
  rw [readLoop, if_neg (by omega), if_pos (by omega), raiseErr_outside s hscope]

end Sys2Proof.Proofs.Chunks

open Sys2Proof Sys2Proof.Machine Sys2Proof.Proofs.Acceptance Sys2Proof.Proofs.ScopeLines Sys2Proof.Proofs.Chunks in
/-- Settles O33: PROGRAM's next chunk is the one at which `skipBlank` stops; READ_DATA's loop compares what is gathered with
what is asked for. -/
theorem loopsGoToTheirNextChunk : Obligations.LoopsGoToTheirNextChunk := by
  unfold Obligations.LoopsGoToTheirNextChunk
  refine ⟨fun s a n p v hclosing hpending hop hn ha => ?_, fun s a n v hclosed hop => ?_⟩
  · rw [returnTransact_closing v hclosing, closeScope_of_program hpending hop]
    refine ⟨skipBlank p n p.length (s.k + 1), le_skipBlank p n p.length (s.k + 1),
      skipBlank_passes_blank p n p.length (s.k + 1), ?_⟩
    rcases Nat.lt_or_ge (skipBlank p n p.length (s.k + 1) * n) p.length with hin | hend
    · exact .inl ⟨hin, skipBlank_stops_at_chunk p.length _ (length_le_fuel_from p _ hn) hin, programLoop_of_chunk ha hin⟩
    · exact .inr ⟨hend, programLoop_of_end a hend⟩
  · rw [returnTransact_closed v hclosed, returnOutside_readData v hop]
    refine ⟨fun hmore => ?_, fun hwhole => ?_, fun hexcess => ?_⟩
    · exact readLoop_of_more a hmore
    · exact readLoop_of_whole (s := { s with acc := s.acc ++ v }) a hwhole
    · exact readLoop_of_excess (s := { s with acc := s.acc ++ v }) a hclosed hexcess

open Sys2Proof Sys2Proof.Machine Sys2Proof.Proofs.Chunks in
/-- Settles O43: the first `k` chunks are the payload's first `k · page_size` bytes. -/
theorem programChunksCoverThePayload : Obligations.ProgramChunksCoverThePayload := by
  unfold Obligations.ProgramChunksCoverThePayload
  refine fun p n k _ hend => ⟨?_, fun j hj => ?_⟩
  · rw [flatMap_programChunk, List.take_of_length_le hend]
  · rw [Nat.succ_mul] at hj
    rw [programChunk_length]
    omega
end

section
/-! Operations over a scripted transport (43_flash_controller.md R120 to R123, R130): a request from its presentation to the line
that its head leads to, and the operations without a write-enable scope from there to their emission. -/

namespace Sys2Proof.Proofs.ScriptedOperations

open Sys2Proof.Machine Sys2Proof.Safety Sys2Proof.Proofs.Steps Sys2Proof.Proofs.Sequencer Sys2Proof.Proofs.Acceptance
  Sys2Proof.Proofs.FlashRanges Sys2Proof.Proofs.DefaultBridge Sys2Proof.Proofs.ReferenceRuns Sys2Proof.Proofs.Encoding
  Sys2Proof.Proofs.TransactionArithmetic Sys2Proof.Proofs.TransactionAnswers Sys2Proof.Proofs.ScriptedRuns
  Sys2Proof.Proofs.ScopeLines Sys2Proof.Proofs.Chunks

variable {s : State} {ws : List WriteAnswer} {rs : List ReadAnswer}

/-! ### A request at its head -/

/-- The block right behind the acceptance of `r`, with nothing more presented. -/
def taken (r : Request) (s : State) : State := accepted r { s with port := [] }

/-- The first step accepts the request; the computation behind it is the operation's head. -/
theorem presented_leadsTo {r : Request}
    (haccept : exec (decodeRequest r) { s with seq := .idle, port := [] } = .next (taken r s)) :
    LeadsTo 1 (presented r s) (startOp (taken r s)) :=
  ⟨taken r s, runSteps_one (step_presented haccept), rfl, rfl⟩

/-- What a block finds of the script does not depend on where its sequencer stands. -/
theorem scripted_of_eq (h : Scripted s ws rs) {t : State} (hcfg : t.cfg = s.cfg) (hport : t.port = [])
    (hsession : t.session = s.session) (henv : t.env = s.env) : Scripted t ws rs where
  port := hport
  session := hsession.trans h.session
  maxPacket := hcfg ▸ h.maxPacket
  kind := henv ▸ h.kind
  writes := henv ▸ h.writes
  reads := henv ▸ h.reads

/-! ### PROGRAM of a blank payload (R130) -/

theorem startOp_blank_program {a n : Nat} {p : List Byte} (hop : currentOp s = some (.program a p n)) (hn : n ≠ 0)
    (ha : a < 2 ^ 24) (hp : a + p.length ≤ 2 ^ 24) (hblank : chunkBlank p = true) :
    startOp s = { s with k := skipBlank p n p.length 0, seq := .emit (.ok []) } := by
  have hhead : startOp s = startProgram a p n s := by rw [startOp, hop]
  rw [hhead, startProgram_of_fits hn ha hp, programLoop_of_blank a 0 hn hblank]

/-! ### RESET (R120) -/

/-- Behind the write that ends RESET the operation ends with `[]` or with the error of the write. -/
theorem afterWrite_returnEmpty (len : Nat) (a : WriteAnswer) (hscope : s.scope = .closed) :
    afterWrite len a .returnEmpty s = { s with seq := .emit ((checkWrite len a).elim (.ok []) .err) } := by
  unfold afterWrite
  cases checkWrite len a with
  | none => rfl
  | some e => exact raiseErr_outside s hscope

/-- At RESET's packet line the packet is written, and the emission follows. -/
theorem setRegister_leadsTo_emit {p : List Byte} {a : WriteAnswer} (h : Scripted s (a :: ws) rs)
    (hq : s.seq = .packet (encodePacket cmdSetRegister p)) (hp : p.length < payloadLimit) (hscope : s.scope = .closed) :
    ∃ v, LeadsTo 1 s v ∧ v.port = [] ∧
      v.seq = .emit ((checkWrite (encodePacket cmdSetRegister p).length a).elim (.ok []) .err) ∧
      v.events = .wrote (encodePacket cmdSetRegister p) s.cfg.timeoutMs a :: s.events := by
  have hstep : step s = .next (sendPacket cmdSetRegister p .returnEmpty s) := by
    rw [step_no_input h.port, proceed_of_atLine (by rw [hq]; rfl),
      runFetched_instr_line (.inl ⟨_, hq, rfl⟩) (decodeWire_setRegister hp)]
    rfl
  have hanswer : (answerWrite (encodePacket cmdSetRegister p) s).1 = a := congrArg Prod.fst (answerWrite_scripted h _)
  have hbehind := afterWrite_returnEmpty (s := sendPacket cmdSetRegister p .returnEmpty s)
    (encodePacket cmdSetRegister p).length (answerWrite (encodePacket cmdSetRegister p) s).1 hscope
  refine ⟨_, ⟨_, runSteps_one hstep, h.port, hbehind⟩, h.port, ?_, ?_⟩ <;> rw [← hanswer]
  rfl

/-! ### One transaction of at most four write bytes, under the default configuration -/

/-- A frame of one to four write bytes, as the Flash Controller's all are but PAGE_PROGRAM's (R80). -/
structure ShortFrame (f : Frame) : Prop where
  pos : 1 ≤ f.wbytes.length
  short : f.wbytes.length ≤ 4

section Transaction

variable {c : Config} {f : Frame} {d : List Byte} {back : RegBlock}

/-- Its SET_REGISTER packet has the 52 bytes that `shortWrites` counts. -/
theorem ShortFrame.setPacket_length (h : ShortFrame f) (c : Config) : (setPacket c f).length = 52 := by
  obtain ⟨hpos, hshort⟩ := h
  rw [Encoding.setPacket_length, paddingOf_eq]
  omega

theorem ShortFrame.notEmpty (h : ShortFrame f) : frameEmpty f = false :=
  frameEmpty_of_work f.dummy (.inl (List.ne_nil_of_length_pos h.pos))

theorem ShortFrame.notTooLong (h : ShortFrame f) : frameTooLong f = false :=
  FlashTransactions.frameTooLong_of_length f.rdLen f.dummy (h.short.trans (by decide))

/-- Status stands in slot 6 (R15). -/
theorem statusWord_of_default (h : IsDefault c) (b : RegBlock) : statusWord c b = b.x6 := by
  obtain ⟨_, _, _, rfl⟩ := h
  rfl

theorem sentinel_of_default (h : IsDefault c) : c.sentinel = 0x00404000#32 := by
  obtain ⟨_, _, _, rfl⟩ := h
  rfl

theorem checkRead_blockAnswer (back : RegBlock) : checkRead (blockAnswer back) = .ok (cmdReadRegister, serialize back) :=
  decodePacket_encodePacket _ (by rw [serialize_length]; decide)

/-- Behind the last call of a transaction the Status word decides between its return and StatusMismatch (R114). -/
theorem proceed_behindTransaction_default (h : IsDefault s.cfg) (f : Frame) (d : List Byte) (back : RegBlock) :
    proceed (behindTransaction s f d back ws rs) =
      if back.x6 = 0x00404000#32 then returnTransact d (behindTransaction s f d back ws rs)
      else raiseErr (.statusMismatch back.x6) (behindTransaction s f d back ws rs) := by
  have hcfg : (behindTransaction s f d back ws rs).cfg = s.cfg := rfl
  rw [proceed_gotBlock (a := blockAnswer back) rfl, afterBlock_of_block (checkRead_blockAnswer back), hcfg,
    statusWord_of_default h, sentinel_of_default h]
  rfl

/-- A transaction that reads nothing: three calls, whatever the Status word is. -/
theorem ShortFrame.write_leadsTo (hf : ShortFrame f) (hq : s.seq = .frame f) (hrd : f.rdLen = 0)
    (h : Scripted s (shortWrites false ++ ws) (blockAnswer back :: rs)) :
    LeadsTo 3 s (proceed (behindTransaction s f [] back ws rs)) := by
  refine ⟨_, write_transaction_scripted hq hf.notTooLong hf.notEmpty hrd ?_, h.port, rfl⟩
  rw [hf.setPacket_length]
  exact h

/-- A transaction that reads: five calls, and the answer's bytes are returned. -/
theorem ShortFrame.read_leadsTo (hf : ShortFrame f) (hq : s.seq = .frame f) (hdefault : IsDefault s.cfg)
    (hlen : d.length = f.rdLen) (hpos : 1 ≤ f.rdLen) (hmax : f.rdLen ≤ 512) (hback : back.x6 = 0x00404000#32)
    (h : Scripted s (shortWrites true ++ ws) (dataAnswer d :: blockAnswer back :: rs)) :
    LeadsTo 5 s (returnTransact d (behindTransaction s f d back ws rs)) := by
  have hexpected := expectedBytes_transactBlock hdefault f.wbytes.length f.dummy hpos hmax
  have hfits : d.length < payloadLimit := hlen ▸ lt_of_le_of_lt hmax (by decide)
  have hreturn := proceed_behindTransaction_default (ws := ws) (rs := rs) hdefault f d back
  rw [if_pos hback] at hreturn
  refine ⟨_, read_transaction_scripted hq hf.notTooLong (by omega) (hlen.trans hexpected.symm) hfits ?_, h.port, hreturn⟩
  rw [hf.setPacket_length]
  exact h

/-! ### READ_ID and READ_UID (R121, R122) -/

theorem rdidFrame_short : ShortFrame rdidFrame := ⟨by decide, by decide⟩

theorem rduidFrame_short : ShortFrame rduidFrame := ⟨by decide, by decide⟩

theorem returnTransact_of_identify (v : List Byte) (hscope : s.scope = .closed)
    (hop : currentOp s = some .readId ∨ currentOp s = some .readUid) :
    returnTransact v s = { s with seq := .emit (.ok v) } := by
  rw [returnTransact_closed v hscope, returnOutside]
  rcases hop with hop | hop <;> rw [hop] <;> rfl

/-- The one transaction of either operation, from its presentation to the emission of the transaction's bytes. -/
theorem identification_runs {r : Request} (hf : ShortFrame f) (hop : decodeRequest r = .readId ∨ decodeRequest r = .readUid)
    (haccept : exec (decodeRequest r) { s with seq := .idle, port := [] } = .next (taken r s))
    (hhead : startOp (taken r s) = { taken r s with seq := .frame f })
    (hscope : s.scope = .closed) (hdefault : IsDefault s.cfg) (hlen : d.length = f.rdLen) (hpos : 1 ≤ f.rdLen)
    (hmax : f.rdLen ≤ 512) (hback : back.x6 = 0x00404000#32)
    (h : Scripted s (shortWrites true ++ ws) (dataAnswer d :: blockAnswer back :: rs)) :
    ∃ u, runSteps 7 (presented r s) = .next u ∧ u.seq = .idle ∧ u.result = some (.ok d) ∧
      u.events = (transactionCalls s.cfg f d back).reverse ++ s.events := by
  obtain ⟨l, hl⟩ : ∃ l, l = { taken r s with seq := .frame f } := ⟨_, rfl⟩
  have hstart : LeadsTo 1 (presented r s) l := by
    rw [hl, ← hhead]
    exact presented_leadsTo haccept
  have hread : LeadsTo 5 l (returnTransact d (behindTransaction l f d back ws rs)) := by
    subst hl
    exact hf.read_leadsTo rfl hdefault hlen hpos hmax hback (scripted_of_eq h rfl rfl rfl rfl)
  have hop' : currentOp (behindTransaction l f d back ws rs) = some .readId ∨
      currentOp (behindTransaction l f d back ws rs) = some .readUid := by
    subst hl
    exact hop.imp (congrArg some) (congrArg some)
  rw [returnTransact_of_identify d (by subst hl; exact hscope) hop'] at hread
  refine ⟨_, (hstart.trans hread).emits ?_ rfl, rfl, rfl, ?_⟩ <;> subst hl <;> rfl

end Transaction

/-! ### The two packets that the spec writes out (V-PK15, V-FC1) -/

section Packets

theorem fieldSet_of_placed {c : Config} {f : Field} {i : Fin 10} {b : FieldBits} (h : Placed c f i b) (rb : RegBlock)
    (n : Nat) : fieldSet c rb f n = slotSet rb i (bitsSet (wordGet rb i) b n) :=
  RegisterBlock.fieldSet_placed rb n h.slot h.bits

variable (t v p : Nat)

theorem isDefault_defaultConfigWith : IsDefault (defaultConfigWith t v p) := ⟨t, v, p, rfl⟩

/-- One byte written, three read (R109): over the defaults only TransferControl changes. -/
theorem transactBlock_rdid : transactBlock (defaultConfigWith t v p) (describe 1 3 0) =
    ⟨0, 0x00020780, 0x03000002, 0, 0, 0, 0x00404000, 0, 0, 0⟩ := by
  have h := isDefault_defaultConfigWith t v p
  have hmode : modeCode (defaultConfigWith t v p).modes .writeThenRead = 3 := rfl
  rw [describe_writeThenRead (by decide) (by decide) (by decide), transactBlock]
  simp only [setCount, hmode]
  rw [fieldSet_of_placed (transMode_placed h), fieldSet_of_placed (wrTranCnt_placed h),
    fieldSet_of_placed (rdTranCnt_placed h), BlockBytes.defaultsBlock_defaultConfigWith]
  decide

/-- The three reset bits and NO_DATA (R120). -/
theorem resetBlock_default : resetBlock (defaultConfigWith t v p) =
    ⟨7, 0x00020780, 0x07000000, 0, 0, 0, 0x00404000, 0, 0, 0⟩ := by
  have h := isDefault_defaultConfigWith t v p
  have hspi : Placed (defaultConfigWith t v p) .spiRst 0 ⟨.spiRst, 0, 1⟩ := ⟨rfl, rfl, by decide⟩
  have hrx : Placed (defaultConfigWith t v p) .rxFifoRst 0 ⟨.rxFifoRst, 1, 1⟩ := ⟨rfl, rfl, by decide⟩
  have htx : Placed (defaultConfigWith t v p) .txFifoRst 0 ⟨.txFifoRst, 2, 1⟩ := ⟨rfl, rfl, by decide⟩
  have hmode : modeCode (defaultConfigWith t v p).modes .noData = 7 := rfl
  simp only [resetBlock, hmode]
  rw [fieldSet_of_placed (transMode_placed h), fieldSet_of_placed htx, fieldSet_of_placed hrx, fieldSet_of_placed hspi,
    BlockBytes.defaultsBlock_defaultConfigWith]
  decide

theorem setPacket_rdid : setPacket (defaultConfigWith t v p) rdidFrame =
    [0x00, 0x00, 0x02, 0x00, 0x2C, 0x00, 0x00, 0x00,
     0x00, 0x00, 0x00, 0x00, 0x80, 0x07, 0x02, 0x00, 0x02, 0x00, 0x00, 0x03, 0x00, 0x00, 0x00, 0x00,
     0x00, 0x00, 0x00, 0x00, 0x00, 0x00, 0x00, 0x00, 0x00, 0x40, 0x40, 0x00, 0x00, 0x00, 0x00, 0x00,
     0x00, 0x00, 0x00, 0x00, 0x00, 0x00, 0x00, 0x00, 0x9F, 0xFF, 0xFF, 0xFF] := by
  have hblock : transactBlock (defaultConfigWith t v p)
      (describe rdidFrame.wbytes.length rdidFrame.rdLen rdidFrame.dummy) = _ := transactBlock_rdid t v p
  rw [setPacket, hblock]
  decide

theorem resetPacket_default : encodePacket cmdSetRegister (serialize (resetBlock (defaultConfigWith t v p))) =
    [0x00, 0x00, 0x02, 0x00, 0x28, 0x00, 0x00, 0x00,
     0x07, 0x00, 0x00, 0x00, 0x80, 0x07, 0x02, 0x00, 0x00, 0x00, 0x00, 0x07, 0x00, 0x00, 0x00, 0x00,
     0x00, 0x00, 0x00, 0x00, 0x00, 0x00, 0x00, 0x00, 0x00, 0x40, 0x40, 0x00, 0x00, 0x00, 0x00, 0x00,
     0x00, 0x00, 0x00, 0x00, 0x00, 0x00, 0x00, 0x00] := by
  rw [resetBlock_default]
  decide

end Packets

end Sys2Proof.Proofs.ScriptedOperations

open Sys2Proof Sys2Proof.Machine Sys2Proof.Proofs.FlashRanges Sys2Proof.Proofs.Chunks
  Sys2Proof.Proofs.ScriptedOperations in
/-- Settles O42: the loop finds no chunk to program, so the emission follows the acceptance. -/
theorem blankProgramSendsNothing : Obligations.BlankProgramSendsNothing := by
  unfold Obligations.BlankProgramSendsNothing
  intro s a n m hport hscope hn ha hm
  have hstart := presented_leadsTo (s := s)
    (r := { bareRequest 6 with addr := a, payload := List.replicate m 0xFF#8, pageSize := n }) rfl
  rw [startOp_blank_program rfl hn ha (by rwa [List.length_replicate]) (chunkBlank_replicate m)] at hstart
  rw [encode, withEncoded_request _ hport]
  exact ⟨_, hstart.emits rfl rfl, rfl, rfl, rfl, rfl⟩

open Sys2Proof Sys2Proof.Machine Sys2Proof.Safety Sys2Proof.Proofs.FlashRanges Sys2Proof.Proofs.ScriptedRuns
  Sys2Proof.Proofs.ScriptedOperations in
/-- Settles O35: RESET's one packet line, whose write the check of R99 judges. -/
theorem resetWritesOnePacket : Obligations.ResetWritesOnePacket := by
  unfold Obligations.ResetWritesOnePacket
  intro s t v p ws rs a hcfg hscope h raw
  have hraw : encodePacket cmdSetRegister (serialize (resetBlock s.cfg)) = raw := by rw [hcfg, resetPacket_default]
  have hstart := presented_leadsTo (s := s) (r := bareRequest 0) rfl
  obtain ⟨w, hlead, hwport, hemit, hevents⟩ := setRegister_leadsTo_emit (s := startReset (taken (bareRequest 0) s))
    (p := serialize (resetBlock s.cfg)) (scripted_of_eq h rfl rfl rfl rfl) rfl (by rw [serialize_length]; decide) hscope
  rw [hraw] at hemit hevents
  rw [encode, withEncoded_request _ h.port]
  refine ⟨_, (hstart.trans hlead).emits hwport hemit, rfl, ?_, ?_, ?_, ?_⟩
  · have htimeout : s.cfg.timeoutMs = t := by rw [hcfg]; rfl
    exact hevents.trans (congrArg (fun n => .wrote raw n a :: s.events) htimeout)
  · rintro rfl
    rfl
  · rintro k rfl
    rfl
  · rintro n rfl hn
    have hshort : checkWrite raw.length (.count n) = some (.shortWrite 48 n) := if_pos hn
    rw [hshort]
    rfl

open Sys2Proof Sys2Proof.Machine Sys2Proof.Safety Sys2Proof.Proofs Sys2Proof.Proofs.FlashRanges
  Sys2Proof.Proofs.ScriptedRuns Sys2Proof.Proofs.ScriptedOperations in
/-- Settles O36: both operations are one transaction, whose bytes they emit. -/
theorem identificationReturnsTheAnswer : Obligations.IdentificationReturnsTheAnswer := by
  unfold Obligations.IdentificationReturnsTheAnswer
  intro s t v p d back ws rs hcfg hscope hback h
  have hdefault : DefaultBridge.IsDefault s.cfg := ⟨t, v, p, hcfg⟩
  refine ⟨fun hlen => ?_, fun hlen => ?_⟩
  · rw [encode, withEncoded_request _ h.port]
    obtain ⟨u, hrun, hidle, hresult, hevents⟩ := identification_runs (r := bareRequest 1) rdidFrame_short (.inl rfl) rfl
      rfl hscope hdefault hlen (by decide) (by decide) hback h
    refine ⟨u, hrun, hidle, hresult, ?_⟩
    rw [hevents, hcfg, transactionCalls_of_read (by decide), setPacket_rdid, hlen]
    rfl
  · rw [encode, withEncoded_request _ h.port]
    exact identification_runs (r := bareRequest 2) rduidFrame_short (.inr rfl) rfl rfl hscope hdefault hlen (by decide)
      (by decide) hback h
end

section
/-! Runs of several transactions over a scripted transport under the default configuration (43_flash_controller.md R123 to R128):
READ_DATA chunk by chunk, the polls of the write-enable scope, and ERASE_64KB through its whole scope. -/

namespace Sys2Proof.Proofs.ScriptedSequences

open Sys2Proof.Machine Sys2Proof.Safety Sys2Proof.Proofs.Acceptance Sys2Proof.Proofs.FlashRanges
  Sys2Proof.Proofs.DefaultBridge Sys2Proof.Proofs.ReferenceRuns Sys2Proof.Proofs.ScriptedRuns Sys2Proof.Proofs.ScopeLines
  Sys2Proof.Proofs.Chunks Sys2Proof.Proofs.ScriptedOperations

/-! ### Calls made along a script -/

/-- From `s` the block makes the calls `calls`, oldest first and one each step, and comes to the line `v` of the same operation;
`ws` and `rs` are left of the script. -/
structure Makes (calls : List Event) (ws : List WriteAnswer) (rs : List ReadAnswer) (s v : State) : Prop where
  leads : LeadsTo calls.length s v
  script : Scripted v ws rs
  cfg : v.cfg = s.cfg
  req : v.req = s.req
  result : v.result = s.result
  events : v.events = calls.reverse ++ s.events

variable {s v : State} {ws ws' : List WriteAnswer} {rs rs' : List ReadAnswer} {calls calls' : List Event}

/-- The computation behind an event makes no call. -/
theorem makes_proceed (h : Scripted s ws rs) : Makes [] ws rs s (proceed s) where
  leads := ⟨s, rfl, h.port, rfl⟩
  script := scripted_of_eq h (proceed_cfg s) ((proceed_port s).trans h.port) (proceed_session s) (proceed_env s)
  cfg := proceed_cfg s
  req := proceed_req s
  result := proceed_result s
  events := proceed_events s

/-- A line stands where it is. -/
theorem makes_of_atLine (h : Scripted s ws rs) (hline : atLine s.seq = true) : Makes [] ws rs s s := by
  have hproceed := makes_proceed h
  rwa [proceed_of_atLine hline] at hproceed

theorem Makes.trans {u : State} (h : Makes calls ws rs s v) (h' : Makes calls' ws' rs' v u) :
    Makes (calls ++ calls') ws' rs' s u where
  leads := by
    rw [List.length_append]
    exact h.leads.trans h'.leads
  script := h'.script
  cfg := h'.cfg.trans h.cfg
  req := h'.req.trans h.req
  result := h'.result.trans h.result
  events := by rw [h'.events, h.events, List.reverse_append, List.append_assoc]

theorem Makes.isDefault (h : Makes calls ws rs s v) (hdefault : IsDefault s.cfg) : IsDefault v.cfg := h.cfg ▸ hdefault

theorem Makes.currentOp (h : Makes calls ws rs s v) : currentOp v = currentOp s := congrArg (Option.map decodeRequest) h.req

/-- A request's acceptance, the calls of its operation from the line its head leads to, and its emission. -/
theorem presented_runs {r : Request} {l : State} {res : Result}
    (haccept : exec (decodeRequest r) { s with seq := .idle, port := [] } = .next (taken r s))
    (hhead : startOp (taken r s) = l) (hmade : Makes calls ws rs l v) (hemit : v.seq = .emit res) :
    runSteps (calls.length + 2) (presented r s) = .next (emitStep res v) := by
  subst hhead
  rw [show calls.length + 2 = 1 + calls.length + 1 by omega]
  exact ((presented_leadsTo haccept).trans hmade.leads).emits hmade.script.port hemit

theorem length_flatMap_of_length {α β : Type} {l : List α} {f : α → List β} {n : Nat} (h : ∀ x ∈ l, (f x).length = n) :
    (l.flatMap f).length = n * l.length := by
  rw [List.length_flatMap, List.map_congr_left h, List.map_const', List.sum_replicate, smul_eq_mul, Nat.mul_comm]

theorem transactionCalls_length (c : Config) (f : Frame) (d : List Byte) (back : RegBlock) :
    (transactionCalls c f d back).length = if f.rdLen = 0 then 3 else 5 := by
  split_ifs with hrd
  · rw [transactionCalls_of_write hrd]
    rfl
  · rw [transactionCalls_of_read hrd]
    rfl

/-- The line that the return or the error of one transaction leads to: only the operation's own fields have changed. -/
theorem makes_transaction {n : Nat} {f : Frame} {d : List Byte} {back : RegBlock} {q : Seq} {sc : Scope}
    {pending : Option Err} {b : Byte} {acc : List Byte} (h : Scripted s ws' rs')
    (hn : (transactionCalls s.cfg f d back).length = n)
    (hlead : LeadsTo n s { behindTransaction s f d back ws rs with
      seq := q, scope := sc, pendingErr := pending, pollByte := b, acc := acc }) :
    Makes (transactionCalls s.cfg f d back) ws rs s { behindTransaction s f d back ws rs with
      seq := q, scope := sc, pendingErr := pending, pollByte := b, acc := acc } where
  leads := hn ▸ hlead
  script := scripted_of_env h rfl rfl rfl rfl
  cfg := rfl
  req := rfl
  result := rfl
  events := rfl

/-! ### READ_DATA chunk by chunk (R123) -/

section ReadData

variable {a : Nat} {d : List Byte} {back : RegBlock}

/-- The frame that reads chunk `j` of `d` for a READ_DATA from `a`. -/
def chunkFrame (a : Nat) (d : List Byte) (j : Nat) : Frame := fastReadFrame (a + maxXfer * j) (readChunk d j).length

/-- The line of the loop with the first `j` chunks gathered: chunk `j`, or the emission of all of `d`. -/
def chunkLine (a : Nat) (d : List Byte) (j : Nat) : Seq :=
  if j * maxXfer < d.length then .frame (chunkFrame a d j) else .emit (.ok d)

/-- A READ_DATA of `d.length` bytes from `a` stands at its loop with the first `j` chunks of `d` gathered. -/
structure Gathered (s : State) (a : Nat) (d : List Byte) (j : Nat) : Prop where
  seq : s.seq = chunkLine a d j
  scope : s.scope = .closed
  op : currentOp s = some (.readData a d.length)
  acc : s.acc = d.take (j * maxXfer)

theorem readChunk_length (d : List Byte) (j : Nat) : (readChunk d j).length = min maxXfer (d.length - j * maxXfer) := by
  rw [readChunk_eq_programChunk, programChunk_length]

theorem lt_chunkCount_iff (d : List Byte) (j : Nat) : j < chunkCount d ↔ j * maxXfer < d.length := by
  show j < (d.length + 79) / 80 ↔ j * 80 < d.length
  omega

theorem readLoop_of_chunks (a : Nat) {j : Nat} (hacc : s.acc = d.take (j * maxXfer)) :
    readLoop a d.length s = { s with seq := chunkLine a d j } := by
  have hlen : s.acc.length = min (j * maxXfer) d.length := by rw [hacc, List.length_take]
  unfold chunkLine
  split_ifs with hmore
  · rw [Nat.min_eq_left hmore.le] at hlen
    rw [readLoop_of_more a (hlen ▸ hmore), chunkFrame, readChunk_length, hlen, Nat.mul_comm]
  · have hall : s.acc = d := hacc.trans (List.take_of_length_le (Nat.not_lt.1 hmore))
    rw [readLoop_of_whole a (congrArg List.length hall), hall]

theorem chunkFrame_short (a : Nat) (d : List Byte) (j : Nat) : ShortFrame (chunkFrame a d j) :=
  ⟨by simp [chunkFrame, fastReadFrame], by simp [chunkFrame, fastReadFrame]⟩

/-- One chunk: its five calls, and the loop stands with its bytes gathered. -/
theorem Gathered.chunk {j : Nat} (hs : Gathered s a d j) (hmore : j * maxXfer < d.length) (hdefault : IsDefault s.cfg)
    (hback : back.x6 = 0x00404000#32)
    (h : Scripted s (shortWrites true ++ ws) (dataAnswer (readChunk d j) :: blockAnswer back :: rs)) :
    ∃ v, Makes (transactionCalls s.cfg (chunkFrame a d j) (readChunk d j) back) ws rs s v ∧ Gathered v a d (j + 1) := by
  have hcount : (readChunk d j).length = min 80 (d.length - j * 80) := readChunk_length d j
  have hpos : 1 ≤ (readChunk d j).length := by rw [hcount]; exact Nat.le_min.2 ⟨by decide, Nat.sub_pos_of_lt hmore⟩
  have hmax : (readChunk d j).length ≤ 512 := by rw [hcount]; exact (Nat.min_le_left _ _).trans (by decide)
  have hlead := (chunkFrame_short a d j).read_leadsTo (d := readChunk d j) (hs.seq.trans (if_pos hmore)) hdefault rfl hpos
    hmax hback h
  have hacc : s.acc ++ readChunk d j = d.take ((j + 1) * maxXfer) := by
    rw [hs.acc, readChunk_eq_programChunk, take_append_programChunk]
  rw [returnTransact_closed (s := behindTransaction s _ _ back ws rs) _ hs.scope,
    returnOutside_readData (s := behindTransaction s _ _ back ws rs) _ hs.op, readLoop_of_chunks a hacc] at hlead
  have hlen : (transactionCalls s.cfg (chunkFrame a d j) (readChunk d j) back).length = 5 :=
    (transactionCalls_length _ _ _ _).trans (if_neg (Nat.ne_of_gt hpos))
  exact ⟨_, makes_transaction h hlen hlead, rfl, hs.scope, hs.op, hacc⟩

/-- The calls of the `m` chunks from `j` on. -/
def chunkCalls (c : Config) (a : Nat) (d : List Byte) (back : RegBlock) (j m : Nat) : List Event :=
  (List.range' j m).flatMap fun i => transactionCalls c (chunkFrame a d i) (readChunk d i) back

/-- What is left of the chunks is read in order, and then the whole of `d` is emitted. -/
theorem chunks_make (m : Nat) (hback : back.x6 = 0x00404000#32) : ∀ {j : Nat} {s : State}, j + m = chunkCount d →
    Gathered s a d j → IsDefault s.cfg →
    Scripted s ((List.range' j m).flatMap (fun _ => shortWrites true) ++ ws)
      ((List.range' j m).flatMap (fun i => [dataAnswer (readChunk d i), blockAnswer back]) ++ rs) →
    ∃ v, Makes (chunkCalls s.cfg a d back j m) ws rs s v ∧ v.seq = .emit (.ok d) := by
  induction m with
  | zero =>
    intro j s hj hs _ h
    have hall : ¬j * maxXfer < d.length := by rw [← lt_chunkCount_iff]; omega
    have hseq : s.seq = .emit (.ok d) := hs.seq.trans (if_neg hall)
    exact ⟨s, makes_of_atLine h (by rw [hseq]; rfl), hseq⟩
  | succ m ih =>
    intro j s hj hs hdefault h
    have hmore : j * maxXfer < d.length := (lt_chunkCount_iff d j).1 (by omega)
    simp only [List.range'_succ, List.flatMap_cons, List.append_assoc] at h
    obtain ⟨v, hmade, hv⟩ := hs.chunk hmore hdefault hback h
    obtain ⟨u, hmade', hu⟩ := ih (by omega) hv (hmade.isDefault hdefault) hmade.script
    rw [hmade.cfg] at hmade'
    exact ⟨u, hmade.trans hmade', hu⟩

/-- The head of a READ_DATA inside 24 bits stands at its loop with nothing gathered. -/
theorem startOp_readData (hop : currentOp s = some (.readData a d.length)) (ha : a < 2 ^ 24) (hd : a + d.length ≤ 2 ^ 24) :
    startOp s = { s with acc := [], seq := chunkLine a d 0 } := by
  have hhead : startOp s = startReadData a d.length s := by rw [startOp, hop]
  rw [hhead, startReadData_of_fits ha hd]
  exact readLoop_of_chunks (s := { s with acc := [] }) a (by rw [Nat.zero_mul, List.take_zero])

theorem chunkCalls_length (c : Config) (a : Nat) (d : List Byte) (back : RegBlock) (m : Nat) (hm : m ≤ chunkCount d) :
    (chunkCalls c a d back 0 m).length = 5 * m := by
  have hlen : ∀ i ∈ List.range' 0 m, (transactionCalls c (chunkFrame a d i) (readChunk d i) back).length = 5 := by
    intro i hi
    have hmore : i * maxXfer < d.length := (lt_chunkCount_iff d i).1 (by rw [List.mem_range'_1] at hi; omega)
    have hne : (readChunk d i).length ≠ 0 := by
      rw [readChunk_length]
      exact Nat.ne_of_gt (Nat.lt_min.2 ⟨by decide, Nat.sub_pos_of_lt hmore⟩)
    exact (transactionCalls_length _ _ _ _).trans (if_neg hne)
  rw [chunkCalls, length_flatMap_of_length hlen, List.length_range']

end ReadData

/-! ### The write-enable scope (R124 to R127) -/

section Scope

variable {q : Seq} {sc : Scope} {pending : Option Err} {back : RegBlock} {b : Byte}

/-- The block stands at the line `q` of the scope position `sc`, with this error pending. -/
structure StandsAt (s : State) (q : Seq) (sc : Scope) (pending : Option Err) : Prop where
  seq : s.seq = q
  scope : s.scope = sc
  pendingErr : s.pendingErr = pending

theorem wrenFrame_short : ShortFrame wrenFrame := ⟨by decide, by decide⟩

theorem rdsrFrame_short : ShortFrame rdsrFrame := ⟨by decide, by decide⟩

theorem wrdiFrame_short : ShortFrame wrdiFrame := ⟨by decide, by decide⟩

theorem blockEraseFrame_short (a : Nat) : ShortFrame (blockEraseFrame a) :=
  ⟨by simp [blockEraseFrame], by simp [blockEraseFrame]⟩

/-- WREN of an ERASE_64KB leads to its body (R125, R128). -/
theorem StandsAt.wren_of_erase {a : Nat} (hs : StandsAt s (.frame wrenFrame) .closed none)
    (hop : currentOp s = some (.erase64kb a)) (hdefault : IsDefault s.cfg) (hback : back.x6 = 0x00404000#32)
    (h : Scripted s (shortWrites false ++ ws) (blockAnswer back :: rs)) :
    ∃ v, Makes (transactionCalls s.cfg wrenFrame [] back) ws rs s v ∧
      StandsAt v (.frame (blockEraseFrame a)) .body none := by
  have hlead := wrenFrame_short.write_leadsTo hs.seq rfl h
  rw [proceed_behindTransaction_default hdefault, if_pos hback,
    returnTransact_closed (s := behindTransaction s wrenFrame [] back ws rs) [] hs.scope,
    returnOutside_erase (s := behindTransaction s wrenFrame [] back ws rs) [] hop] at hlead
  exact ⟨_, makes_transaction h (transactionCalls_length _ _ _ _) hlead, rfl, rfl, rfl⟩

/-- The error of a scope's body whose read-back Status word is that of `body` (R114). -/
def bodyError (body : RegBlock) : Option Err := if body.x6 = 0x00404000#32 then none else some (.statusMismatch body.x6)

/-- The body leads to the polls, with StatusMismatch pending where its Status word is another (R124, R126). -/
theorem StandsAt.body {f : Frame} {body : RegBlock} (hs : StandsAt s (.frame f) .body none) (hf : ShortFrame f)
    (hrd : f.rdLen = 0) (hdefault : IsDefault s.cfg)
    (h : Scripted s (shortWrites false ++ ws) (blockAnswer body :: rs)) :
    ∃ v, Makes (transactionCalls s.cfg f [] body) ws rs s v ∧
      StandsAt v (.frame rdsrFrame) .polling (bodyError body) := by
  have hlen : (transactionCalls s.cfg f [] body).length = 3 := (transactionCalls_length _ _ _ _).trans (if_pos hrd)
  have hlead := hf.write_leadsTo hs.seq hrd h
  rw [proceed_behindTransaction_default hdefault] at hlead
  unfold bodyError
  split_ifs at hlead ⊢
  · rw [returnTransact_body (s := behindTransaction s f [] body ws rs) [] hs.scope] at hlead
    exact ⟨_, makes_transaction h hlen hlead, rfl, rfl, hs.pendingErr⟩
  · rw [raiseErr_body (behindTransaction s f [] body ws rs) hs.scope] at hlead
    exact ⟨_, makes_transaction h hlen hlead, rfl, rfl, rfl⟩

section Polls

variable (hdefault : IsDefault s.cfg) (hback : back.x6 = 0x00404000#32)
include hdefault hback

/-- The five calls of a poll, up to the answer's own line (R126). -/
theorem StandsAt.poll (hs : StandsAt s (.frame rdsrFrame) .polling pending)
    (h : Scripted s (shortWrites true ++ ws) (pollReads back b ++ rs)) :
    LeadsTo 5 s (pollAnswer [b] (behindTransaction s rdsrFrame [b] back ws rs)) := by
  rw [← returnTransact_polling (s := behindTransaction s rdsrFrame [b] back ws rs) [b] hs.scope]
  exact rdsrFrame_short.read_leadsTo hs.seq hdefault rfl (by decide) (by decide) hback h

theorem StandsAt.poll_of_wip (hs : StandsAt s (.frame rdsrFrame) .polling pending) (hwip : b.getLsbD 0 = true)
    (h : Scripted s (shortWrites true ++ ws) (pollReads back b ++ rs)) :
    ∃ v, Makes (transactionCalls s.cfg rdsrFrame [b] back) ws rs s v ∧ StandsAt v (.frame rdsrFrame) .polling pending := by
  have hlead := hs.poll hdefault hback h
  rw [pollAnswer_of_wip hwip] at hlead
  exact ⟨_, makes_transaction h (transactionCalls_length _ _ _ _) hlead, rfl, hs.scope, hs.pendingErr⟩

theorem StandsAt.poll_of_done (hs : StandsAt s (.frame rdsrFrame) .polling pending) (hdone : b.getLsbD 0 = false)
    (h : Scripted s (shortWrites true ++ ws) (pollReads back b ++ rs)) :
    ∃ v, Makes (transactionCalls s.cfg rdsrFrame [b] back) ws rs s v ∧ StandsAt v (.frame wrdiFrame) .closing pending ∧
      v.pollByte = b := by
  have hlead := hs.poll hdefault hback h
  rw [pollAnswer_of_done hdone] at hlead
  exact ⟨_, makes_transaction h (transactionCalls_length _ _ _ _) hlead, ⟨rfl, rfl, hs.pendingErr⟩, rfl⟩

end Polls

/-- The calls of the polls that are answered with the bytes `bs`. -/
def pollCalls (c : Config) (back : RegBlock) (bs : List Byte) : List Event :=
  bs.flatMap fun b => transactionCalls c rdsrFrame [b] back

theorem pollCalls_length (c : Config) (back : RegBlock) (bs : List Byte) :
    (pollCalls c back bs).length = 5 * bs.length :=
  length_flatMap_of_length fun _ _ => transactionCalls_length _ _ _ _

/-- However many answers in a row have WIP set, the next poll follows (R126, R137). -/
theorem busy_polls_make {bs : List Byte} (hback : back.x6 = 0x00404000#32) (hbusy : ∀ b ∈ bs, b.getLsbD 0 = true) :
    ∀ {s : State}, StandsAt s (.frame rdsrFrame) .polling pending → IsDefault s.cfg →
      Scripted s (bs.flatMap (fun _ => shortWrites true) ++ ws) (bs.flatMap (pollReads back) ++ rs) →
      ∃ v, Makes (pollCalls s.cfg back bs) ws rs s v ∧ StandsAt v (.frame rdsrFrame) .polling pending := by
  induction bs with
  | nil =>
    intro s hs _ h
    exact ⟨s, makes_of_atLine h (by rw [hs.seq]; rfl), hs⟩
  | cons b bs ih =>
    intro s hs hdefault h
    obtain ⟨hb, hrest⟩ := List.forall_mem_cons.1 hbusy
    simp only [List.flatMap_cons, List.append_assoc] at h
    obtain ⟨v, hmade, hv⟩ := hs.poll_of_wip hdefault hback hb h
    obtain ⟨u, hmade', hu⟩ := ih hrest hv (hmade.isDefault hdefault) hmade.script
    rw [hmade.cfg] at hmade'
    exact ⟨u, hmade.trans hmade', hu⟩

/-- WRDI ends the scope, and an ERASE_64KB with it: with the pending error, or with `[]` (R124, R127). -/
theorem StandsAt.wrdi_of_erase {a : Nat} (hs : StandsAt s (.frame wrdiFrame) .closing pending)
    (hop : currentOp s = some (.erase64kb a)) (hdefault : IsDefault s.cfg) (hback : back.x6 = 0x00404000#32)
    (h : Scripted s (shortWrites false ++ ws) (blockAnswer back :: rs)) :
    ∃ v, Makes (transactionCalls s.cfg wrdiFrame [] back) ws rs s v ∧
      StandsAt v (.emit (pending.elim (.ok []) .err)) .closed none ∧ v.pollByte = s.pollByte := by
  have hlead := wrdiFrame_short.write_leadsTo hs.seq rfl h
  rw [proceed_behindTransaction_default hdefault, if_pos hback,
    returnTransact_closing (s := behindTransaction s wrdiFrame [] back ws rs) [] hs.scope] at hlead
  cases pending with
  | none =>
    rw [closeScope_of_single (s := behindTransaction s wrdiFrame [] back ws rs) hs.pendingErr (p := []) (.inl hop)] at hlead
    exact ⟨_, makes_transaction h (transactionCalls_length _ _ _ _) hlead, ⟨rfl, rfl, hs.pendingErr⟩, rfl⟩
  | some e =>
    rw [closeScope_of_pending (s := behindTransaction s wrdiFrame [] back ws rs) hs.pendingErr] at hlead
    exact ⟨_, makes_transaction h (transactionCalls_length _ _ _ _) hlead, ⟨rfl, rfl, rfl⟩, rfl⟩

/-- The calls of a whole ERASE_64KB, polled busy with `bs` and done with `b` (R124). -/
def eraseCalls (c : Config) (a : Nat) (bs : List Byte) (b : Byte) (back body : RegBlock) : List Event :=
  transactionCalls c wrenFrame [] back ++ transactionCalls c (blockEraseFrame a) [] body ++ pollCalls c back (bs ++ [b]) ++
    transactionCalls c wrdiFrame [] back

theorem eraseCalls_length (c : Config) (a : Nat) (bs : List Byte) (b : Byte) (back body : RegBlock) :
    (eraseCalls c a bs b back body).length = 5 * bs.length + 14 := by
  have hbody : (transactionCalls c (blockEraseFrame a) [] body).length = 3 := transactionCalls_length _ _ _ _
  have hwren : (transactionCalls c wrenFrame [] back).length = 3 := transactionCalls_length _ _ _ _
  have hwrdi : (transactionCalls c wrdiFrame [] back).length = 3 := transactionCalls_length _ _ _ _
  simp only [eraseCalls, List.length_append, pollCalls_length, hbody, hwren, hwrdi, List.length_singleton]
  omega

/-- The head of an ERASE_64KB inside 24 bits (R128). -/
theorem startOp_erase {a : Nat} (hop : currentOp s = some (.erase64kb a)) (ha : a < 2 ^ 24) :
    startOp s = { s with seq := .frame wrenFrame } := by
  have hhead : startOp s = startErase64kb a s := by rw [startOp, hop]
  rw [hhead, startErase64kb_eq_beginPage, beginPage_of_fits ha]

/-- The whole scope around an erase, whatever its body's Status word is (R124, R128). -/
theorem StandsAt.erase_scope {a : Nat} {bs : List Byte} {body : RegBlock} (hs : StandsAt s (.frame wrenFrame) .closed none)
    (hop : currentOp s = some (.erase64kb a)) (hdefault : IsDefault s.cfg) (hback : back.x6 = 0x00404000#32)
    (hbusy : ∀ x ∈ bs, x.getLsbD 0 = true) (hdone : b.getLsbD 0 = false)
    (h : Scripted s
      (shortWrites false ++ shortWrites false ++ (bs ++ [b]).flatMap (fun _ => shortWrites true) ++ shortWrites false ++ ws)
      ([blockAnswer back, blockAnswer body] ++ (bs ++ [b]).flatMap (pollReads back) ++ [blockAnswer back] ++ rs)) :
    ∃ v, Makes (eraseCalls s.cfg a bs b back body) ws rs s v ∧
      StandsAt v (.emit ((bodyError body).elim (.ok []) .err)) .closed none ∧ v.pollByte = b := by
  simp only [List.flatMap_append, List.flatMap_cons, List.flatMap_nil, List.append_nil, List.append_assoc,
    List.cons_append, List.nil_append] at h
  obtain ⟨atBody, hwren, hAtBody⟩ := hs.wren_of_erase hop hdefault hback h
  obtain ⟨atPoll, hbody, hAtPoll⟩ := hAtBody.body (blockEraseFrame_short a) rfl (hwren.isDefault hdefault) hwren.script
  have htoPoll := hwren.trans hbody
  obtain ⟨atLastPoll, hpolls, hAtLastPoll⟩ := busy_polls_make hback hbusy hAtPoll (htoPoll.isDefault hdefault)
    htoPoll.script
  have htoLastPoll := htoPoll.trans hpolls
  obtain ⟨atWrdi, hpoll, hAtWrdi, hbyte⟩ := hAtLastPoll.poll_of_done (htoLastPoll.isDefault hdefault) hback hdone
    htoLastPoll.script
  have htoWrdi := htoLastPoll.trans hpoll
  obtain ⟨atEmission, hwrdi, hAtEmission, hbyte'⟩ := hAtWrdi.wrdi_of_erase (htoWrdi.currentOp.trans hop)
    (htoWrdi.isDefault hdefault) hback htoWrdi.script
  have htoEmission := htoWrdi.trans hwrdi
  rw [htoWrdi.cfg, htoLastPoll.cfg, htoPoll.cfg, hwren.cfg] at htoEmission
  refine ⟨atEmission, ?_, hAtEmission, hbyte'.trans hbyte⟩
  simpa only [eraseCalls, pollCalls, List.flatMap_append, List.flatMap_cons, List.flatMap_nil, List.append_nil,
    List.append_assoc] using htoEmission

end Scope

end Sys2Proof.Proofs.ScriptedSequences

open Sys2Proof Sys2Proof.Machine Sys2Proof.Safety Sys2Proof.Proofs.FlashRanges
  Sys2Proof.Proofs.ScriptedOperations Sys2Proof.Proofs.ScriptedSequences in
/-- Settles O37: the loop from nothing gathered to everything gathered, chunk by chunk. -/
theorem readDataReturnsItsChunks : Obligations.ReadDataReturnsItsChunks := by
  unfold Obligations.ReadDataReturnsItsChunks
  intro s t v p a d back ws rs hcfg hscope hback ha hd h
  rw [List.range_eq_range'] at h
  obtain ⟨u, hmade, hu⟩ := chunks_make (chunkCount d)
    (s := { taken { bareRequest 3 with addr := a, length := d.length } s with acc := [], seq := chunkLine a d 0 }) hback
    (Nat.zero_add _) ⟨rfl, hscope, rfl, by rw [Nat.zero_mul, List.take_zero]⟩ ⟨t, v, p, hcfg⟩
    (scripted_of_eq h rfl rfl rfl rfl)
  have hrun := presented_runs rfl (startOp_readData rfl ha hd) hmade hu
  rw [chunkCalls_length _ _ _ _ _ le_rfl] at hrun
  rw [encode, withEncoded_request _ h.port, List.range_eq_range']
  exact ⟨_, hrun, rfl, rfl, hmade.script.writes, hmade.script.reads, hmade.events⟩

open Sys2Proof Sys2Proof.Machine Sys2Proof.Safety Sys2Proof.Proofs.ScriptedOperations
  Sys2Proof.Proofs.ScriptedSequences in
/-- Settles O38: the polls from the first poll's line on, by induction on the answers with WIP set. -/
theorem pollsAsLongAsBusy : Obligations.PollsAsLongAsBusy := by
  unfold Obligations.PollsAsLongAsBusy
  intro s t v p bs back ws rs hcfg hseq hscope hback hbusy h
  have hfirst := makes_proceed h
  obtain ⟨w, hmade, hseq', hscope', hpending⟩ := busy_polls_make hback hbusy ⟨hseq, hscope, rfl⟩
    (hfirst.isDefault ⟨t, v, p, hcfg⟩) hfirst.script
  obtain ⟨⟨u, hrun, hport, rfl⟩, hscript, _, hreq, hresult, hevents⟩ := hfirst.trans hmade
  rw [List.nil_append, pollCalls_length] at hrun
  rw [proceed_req] at hreq
  rw [proceed_result] at hresult
  rw [proceed_events, List.nil_append, proceed_cfg] at hevents
  exact ⟨u, hrun, hseq', hscope', hresult, hreq, hpending,
    scripted_of_eq hscript (proceed_cfg u).symm hport (proceed_session u).symm (proceed_env u).symm, hevents⟩

open Sys2Proof Sys2Proof.Machine Sys2Proof.Safety Sys2Proof.Proofs.FlashRanges
  Sys2Proof.Proofs.ScriptedOperations Sys2Proof.Proofs.ScriptedSequences in
/-- Settles O39: the scope around the erase frame; its body's Status word decides only what is emitted at its end. -/
theorem eraseRunsItsBracket : Obligations.EraseRunsItsBracket := by
  unfold Obligations.EraseRunsItsBracket
  intro s t v p a bs b back body ws rs hcfg hscope hpending ha hback hbusy hdone h
  obtain ⟨u, hmade, hu, hbyte⟩ := StandsAt.erase_scope
    (s := { taken { bareRequest 4 with addr := a } s with seq := .frame wrenFrame }) ⟨rfl, hscope, hpending⟩ rfl
    ⟨t, v, p, hcfg⟩ hback hbusy hdone (scripted_of_eq h rfl rfl rfl rfl)
  have hrun := presented_runs rfl (startOp_erase rfl ha) hmade hu.seq
  rw [eraseCalls_length] at hrun
  rw [encode, withEncoded_request _ h.port]
  refine ⟨_, hrun, rfl, hu.scope, hu.pendingErr, hbyte, fun hbody => ?_, fun hbody => ?_, hmade.script.writes,
    hmade.script.reads, hmade.events⟩
  · rw [bodyError, if_pos hbody]
    rfl
  · rw [bodyError, if_neg hbody]
    rfl
end

section
/-! Back-pressure and error entry (60_exceptions.md R131, R134, R144; 70_reset_and_hazards.md R152): what a busy block does with
a request, and what the emission of an error leaves. -/

namespace Sys2Proof.Proofs.HeldRequests

open Sys2Proof.Machine Sys2Proof.Proofs.Steps

variable {s : State}

/-! ### A request at a busy block (R144) -/

/-- Whatever a request asks for, executing it is offering it for acceptance. -/
theorem exec_of_encode_request (s : State) {i : Instr} {r : Request} (h : encode i = .request r) :
    ∃ position, exec i s = .next (accept r position s) := by
  cases i <;> simp only [encode, reduceCtorEq, Encoded.request.injEq] at h <;> subst h <;> exact ⟨_, rfl⟩

/-- With a request waiting at its port, the busy block goes on from where it stands. -/
theorem step_of_held_request {r : Request} {rest : List PortInput} (hbusy : s.seq ≠ .idle)
    (hport : s.port = .request r :: rest) : step s = runFetched (fetchLine (proceed s)) := by
  rw [step, fetch, hport]
  exact congrArg runFetched (if_neg hbusy)

/-! ### The request port at a line -/

theorem runTransact_port (s : State) (f : Frame) : (runTransact f s).port = s.port := by
  rcases runTransact_cases s f with ⟨_, e⟩ | ⟨_, _, e⟩ | ⟨_, _, e⟩ <;> rw [e]
  · exact returnTransact_port s _
  · exact raiseErr_port s _
  · rfl

/-- No line's event touches the request port. -/
theorem line_port {t : State} (h : runFetched (fetchLine s) = .next t) : t.port = s.port := by
  rcases runFetched_fetchLine_cases s h with ⟨f, _, rfl⟩ | ⟨_, c, p, next, _, rfl, _⟩ | ⟨_, rfl⟩ | ⟨_, rfl⟩ |
    ⟨r, _, rfl⟩ | ⟨_, rfl⟩
  · exact runTransact_port s f
  · exact sendPacket_port s c p next
  · exact recvPacket_port s _ _
  · exact recvPacket_port s _ _
  · exact emitStep_port s r
  · rfl

/-! ### The emission of an error (R134) -/

/-- The emission leaves the same state behind any two results but for RESULT, whatever line is said to hold them. -/
theorem emitStep_with_result (r r' : Result) (q : Seq) :
    { emitStep r { s with seq := q } with result := some r' } = emitStep r' s := rfl

end Sys2Proof.Proofs.HeldRequests

open Sys2Proof Sys2Proof.Machine Sys2Proof.Proofs.Steps Sys2Proof.Proofs.HeldRequests in
/-- Settles O24: acceptance puts the request back on the port of a busy block, and a step there is the sequencer's own, which
leaves the port alone and changes REQ by an emission only. -/
theorem requestsAreHeldWhileBusy : Obligations.RequestsAreHeldWhileBusy := by
  unfold Obligations.RequestsAreHeldWhileBusy
  intro s r hbusy
  refine ⟨fun i hencode => ?_, fun rest t hport hstep => ?_⟩
  · obtain ⟨position, hexec⟩ := exec_of_encode_request s hencode
    rw [hexec, accept_busy s hbusy]
  · have hline : runFetched (fetchLine (proceed s)) = .next t := (step_of_held_request hbusy hport).symm.trans hstep
    refine ⟨(line_port hline).trans (proceed_port s), ?_⟩
    obtain ⟨_, ⟨_, hreq⟩ | ⟨_, _, rfl⟩⟩ := line_keeps hline
    · exact .inl (hreq.trans (proceed_req s))
    · exact .inr ⟨rfl, rfl⟩

open Sys2Proof Sys2Proof.Machine Sys2Proof.Proofs.ScriptedRuns Sys2Proof.Proofs.HeldRequests in
/-- Settles O31: the codes are the table of R131; the step in which an error is raised is the emission behind the
computation, which makes no call, and the emission of an OK differs from it in RESULT alone. -/
theorem errorEndsTheRequest : Obligations.ErrorEndsTheRequest := by
  unfold Obligations.ErrorEndsTheRequest
  refine ⟨fun _ => rfl, fun _ _ _ _ _ => ⟨rfl, rfl, rfl, rfl, rfl, rfl, rfl, rfl, rfl⟩, fun s _ => raiseErr_outside s,
    fun s e hemit hport => ?_⟩
  refine ⟨emitStep (.err e) (proceed s), step_of_emit hport hemit, rfl, rfl, rfl, rfl, rfl, proceed_events s, proceed_env s,
    rfl, rfl, fun v => ?_⟩
  have hempty : (proceed s).port = [] := (proceed_port s).trans hport
  exact ⟨_, step_of_emit (u := { proceed s with seq := .emit (.ok v) }) hempty rfl, emitStep_with_result _ _ _⟩
end

section
/-! Noninterference (10_state.md R17, 70_reset_and_hazards.md R148): the fields that earlier requests and transactions leave
behind may hold anything, except where a running transaction or operation still needs them; the computation of a step, the
event at a line and so every step keep that. -/

namespace Sys2Proof.Proofs.Noninterference

open Sys2Proof.Machine Sys2Proof.Safety Sys2Proof.Proofs.Steps Sys2Proof.Proofs.Sequencer

/-! ### A state with other traces of the past -/

/-- What requests and transactions leave behind in a state. -/
structure Traces where
  td : Descriptor
  rb : RegBlock
  data : List Byte
  acc : List Byte
  k : Nat
  pollByte : Byte
  result : Option Result
  events : List Event

/-- The state with other traces. -/
def withTraces (s : State) (o : Traces) : State :=
  { s with
    td := o.td, rb := o.rb, data := o.data, acc := o.acc, k := o.k, pollByte := o.pollByte, result := o.result,
    events := o.events }

variable {s t : State} {o : Traces}

theorem exists_traces_of_agree (h : Agree s t) : ∃ o, t = withTraces s o :=
  ⟨⟨t.td, t.rb, t.data, t.acc, t.k, t.pollByte, t.result, t.events⟩, by
    simp only [withTraces, h.cfg, h.seq, h.req, h.scope, h.pendingErr, h.session, h.port, h.env]⟩

/-- The traces hold the loop variable that the operation reads: ACC for READ_DATA, K for PROGRAM (R37). -/
def LoopKept (s : State) (o : Traces) : Prop :=
  (needsAcc (currentOp s) = true → s.acc = o.acc) ∧ (needsChunk (currentOp s) = true → s.k = o.k)

theorem loopKept_of_agree (h : Agree s (withTraces s o)) (hrunning : running s.seq = true) : LoopKept s o :=
  ⟨h.acc hrunning, h.k hrunning⟩

/-- An operation without a loop reads neither. -/
theorem loopKept_of_no_loop {i : Instr} (hop : currentOp s = some i) (hacc : needsAcc (some i) = false)
    (hk : needsChunk (some i) = false) : LoopKept s o :=
  ⟨by simp [hop, hacc], by simp [hop, hk]⟩

/-! ### Positions and what they read -/

/-- Outside a running operation no transaction is under way. -/
theorem needs_nothing_of_not_running {q : Seq} (h : running q = false) : needsBlock q = false ∧ needsData q = false := by
  cases q <;> simp_all [running, needsBlock, needsData]

theorem needsData_readDataLine : needsData readDataLine = false := by
  simp [needsData, readDataLine, decodeWire_readData]

theorem needsBlock_readRegisterLine : needsBlock readRegisterLine = false := by
  simp [needsBlock, readRegisterLine, decodeWire_readRegister]

theorem agree_of_not_running (hout : running s.seq = false) : Agree s (withTraces s o) :=
  have hneeds := needs_nothing_of_not_running hout
  ⟨rfl, rfl, rfl, rfl, rfl, rfl, rfl, rfl, by simp [hneeds], by simp [hneeds], by simp [hout], by simp [hout]⟩

theorem LoopKept.agree (h : LoopKept s o) (hrb : needsBlock s.seq = true → s.rb = o.rb)
    (hdata : needsData s.seq = true → s.data = o.data) : Agree s (withTraces s o) :=
  ⟨rfl, rfl, rfl, rfl, rfl, rfl, rfl, rfl, hrb, hdata, fun _ => h.1, fun _ => h.2⟩

theorem emit_agree (r : Result) : Agree { s with seq := .emit r } { withTraces s o with seq := .emit r } :=
  agree_of_not_running (s := { s with seq := .emit r }) (o := o) rfl

theorem LoopKept.goTo (h : LoopKept s o) {q : Seq} (hrb : needsBlock q = true → s.rb = o.rb)
    (hdata : needsData q = true → s.data = o.data) : Agree { s with seq := q } { withTraces s o with seq := q } :=
  LoopKept.agree (s := { s with seq := q }) h hrb hdata

/-- A transaction's line comes before the Register Block and the data of that transaction. -/
theorem LoopKept.goToFrame (h : LoopKept s o) (f : Frame) :
    Agree { s with seq := .frame f } { withTraces s o with seq := .frame f } :=
  h.goTo (by simp [needsBlock]) (by simp [needsData])

/-! ### The operations between two events -/

theorem raiseErr_agree_outside (hscope : s.scope = .closed) (e : Err) :
    Agree (raiseErr e s) (raiseErr e (withTraces s o)) := by
  rw [raiseErr_outside s hscope, raiseErr_outside (withTraces s o) hscope]
  exact emit_agree _

/-- Error entry ends the operation or goes to the scope's first poll, as SCOPE and PENDING_ERR say (R134). -/
theorem LoopKept.raiseErr_agree (h : LoopKept s o) (e : Err) : Agree (raiseErr e s) (raiseErr e (withTraces s o)) := by
  have hexit (hscope : s.scope = .polling ∨ s.scope = .closing) : Agree (raiseErr e s) (raiseErr e (withTraces s o)) := by
    rw [raiseErr_exit s hscope, raiseErr_exit (withTraces s o) hscope]
    exact emit_agree (s := { s with scope := .closed, pendingErr := none }) _
  cases hscope : s.scope with
  | closed => exact raiseErr_agree_outside hscope e
  | body =>
    rw [raiseErr_body s hscope, raiseErr_body (withTraces s o) hscope]
    exact LoopKept.goToFrame (s := { s with scope := .polling, pendingErr := some e }) h rdsrFrame
  | polling => exact hexit (.inl hscope)
  | closing => exact hexit (.inr hscope)

theorem LoopKept.issueFrame_agree (h : LoopKept s o) (f : Frame) :
    Agree (issueFrame f s) (issueFrame f (withTraces s o)) := by
  unfold issueFrame
  split_ifs
  · exact h.raiseErr_agree _
  · exact h.goToFrame f

theorem LoopKept.readLoop_agree (h : LoopKept s o) (hacc : s.acc = o.acc) (a n : Nat) :
    Agree (readLoop a n s) (readLoop a n (withTraces s o)) := by
  have hlen : (withTraces s o).acc.length = s.acc.length := congrArg List.length hacc.symm
  have hfinish : finishOp (withTraces s o).acc (withTraces s o) = finishOp s.acc (withTraces s o) :=
    congrArg (finishOp · (withTraces s o)) hacc.symm
  unfold readLoop
  rw [hlen, hfinish]
  split_ifs
  · exact h.goToFrame _
  · exact h.raiseErr_agree _
  · exact emit_agree _

theorem LoopKept.beginPage_agree (h : LoopKept s o) (a : Nat) : Agree (beginPage a s) (beginPage a (withTraces s o)) := by
  unfold beginPage
  split_ifs
  · exact h.raiseErr_agree _
  · exact h.goToFrame wrenFrame

/-- PROGRAM's loop sets K before anything reads it (R130). -/
theorem programLoop_agree {a n : Nat} {p : List Byte} (hop : currentOp s = some (.program a p n)) (k : Nat) :
    Agree (programLoop a p n k s) (programLoop a p n k (withTraces s o)) := by
  have hset (k' : Nat) : LoopKept { s with k := k' } { o with k := k' } := by
    have hop' : currentOp { s with k := k' } = some (.program a p n) := hop
    exact ⟨by simp [hop', needsAcc], fun _ => rfl⟩
  unfold programLoop
  dsimp only
  split_ifs
  · exact (hset _).beginPage_agree _
  · exact emit_agree (s := { s with k := _ }) (o := { o with k := _ }) _

/-- The body of a scope reads K only in a PROGRAM (R128 to R130). -/
theorem LoopKept.scopeBody_eq (h : LoopKept s o) : scopeBody (withTraces s o) = scopeBody s := by
  have hsame : currentOp (withTraces s o) = currentOp s := rfl
  unfold scopeBody
  rw [hsame]
  split
  case h_3 a p n hop =>
    have hk : s.k = (withTraces s o).k := h.2 (by rw [hop]; rfl)
    rw [hk]
  all_goals rfl

theorem LoopKept.enterBody_agree (h : LoopKept s o) : Agree (enterBody s) (enterBody (withTraces s o)) := by
  unfold enterBody
  rw [h.scopeBody_eq]
  exact LoopKept.issueFrame_agree (s := { s with scope := .body, pendingErr := none }) h _

/-- POLL_BYTE is written and never read. -/
theorem LoopKept.pollAnswer_agree (h : LoopKept s o) (v : List Byte) :
    Agree (pollAnswer v s) (pollAnswer v (withTraces s o)) := by
  cases v with
  | nil => exact h.goToFrame rdsrFrame
  | cons b rest =>
    unfold pollAnswer
    dsimp only
    split_ifs
    · exact LoopKept.goToFrame (s := { s with pollByte := b, scope := .closing }) (o := { o with pollByte := b }) h
        wrdiFrame
    · exact LoopKept.goToFrame (s := { s with pollByte := b }) (o := { o with pollByte := b }) h rdsrFrame

theorem LoopKept.closeScope_agree (h : LoopKept s o) : Agree (closeScope s) (closeScope (withTraces s o)) := by
  have hpending : (withTraces s o).pendingErr = s.pendingErr := rfl
  have hsame : currentOp (withTraces s o) = currentOp s := rfl
  unfold closeScope
  rw [hpending, hsame]
  split
  · exact LoopKept.raiseErr_agree (s := { s with scope := .closed, pendingErr := none }) h _
  · split
    · next a p n hprogram =>
      have hk : s.k + 1 = (withTraces s o).k + 1 := congrArg (· + 1) (h.2 (by rw [hprogram]; rfl))
      rw [← hk]
      exact programLoop_agree (s := { s with scope := .closed }) hprogram _
    · exact emit_agree (s := { s with scope := .closed }) _

theorem LoopKept.returnOutside_agree (h : LoopKept s o) (v : List Byte) :
    Agree (returnOutside v s) (returnOutside v (withTraces s o)) := by
  have hsame : currentOp (withTraces s o) = currentOp s := rfl
  unfold returnOutside
  rw [hsame]
  split
  case h_1 a n hread =>
    have hacc : s.acc ++ v = o.acc ++ v := congrArg (· ++ v) (h.1 (by rw [hread]; rfl))
    have hgathered : LoopKept { s with acc := s.acc ++ v } { o with acc := o.acc ++ v } := ⟨fun _ => hacc, h.2⟩
    exact hgathered.readLoop_agree hacc a n
  case h_5 => exact emit_agree _
  all_goals exact h.enterBody_agree

theorem LoopKept.returnTransact_agree (h : LoopKept s o) (v : List Byte) :
    Agree (returnTransact v s) (returnTransact v (withTraces s o)) := by
  have hscope : (withTraces s o).scope = s.scope := rfl
  unfold returnTransact
  rw [hscope]
  cases s.scope with
  | closed => exact h.returnOutside_agree v
  | body => exact LoopKept.goToFrame (s := { s with scope := .polling }) h rdsrFrame
  | polling => exact h.pollAnswer_agree v
  | closing => exact h.closeScope_agree

/-! ### The computation behind an event -/

/-- The line behind a write reads what the position behind that write still needed. -/
theorem LoopKept.goLine_agree (h : LoopKept s o) {n : Nat} {a : WriteAnswer} {next : Line}
    (hrb : needsBlock (.wrote n a next) = true → s.rb = o.rb)
    (hdata : needsData (.wrote n a next) = true → s.data = o.data) :
    Agree (goLine next s) (goLine next (withTraces s o)) := by
  have hcleared : LoopKept { s with data := [] } { o with data := [] } := h
  cases next with
  | returnEmpty => exact emit_agree _
  | askData => exact hcleared.goTo (q := readDataLine) (fun _ => hrb rfl) (by simp [needsData_readDataLine])
  | askBlock => exact hcleared.goTo (q := readRegisterLine) (by simp [needsBlock_readRegisterLine]) (fun _ => rfl)
  | recvData => exact h.goTo (q := .recvData) (fun _ => hrb rfl) (by simp [needsData])
  | recvBlock => exact h.goTo (q := .recvBlock) (by simp [needsBlock]) (fun _ => hdata rfl)

theorem LoopKept.afterWrite_agree (h : LoopKept s o) {n : Nat} {a : WriteAnswer} {next : Line}
    (hrb : needsBlock (.wrote n a next) = true → s.rb = o.rb)
    (hdata : needsData (.wrote n a next) = true → s.data = o.data) :
    Agree (afterWrite n a next s) (afterWrite n a next (withTraces s o)) := by
  unfold afterWrite
  cases checkWrite n a with
  | some e => exact h.raiseErr_agree e
  | none => exact h.goLine_agree hrb hdata

theorem LoopKept.afterData_agree (h : LoopKept s o) (hrb : s.rb = o.rb) (a : ReadAnswer) :
    Agree (afterData a s) (afterData a (withTraces s o)) := by
  have hexpected : expectedBytes (withTraces s o).cfg (withTraces s o).rb = expectedBytes s.cfg s.rb :=
    congrArg (expectedBytes s.cfg) hrb.symm
  unfold afterData
  rw [hexpected]
  split
  · exact h.raiseErr_agree _
  · next payload _ =>
    split_ifs
    · exact h.raiseErr_agree _
    · exact LoopKept.goTo (s := { s with data := payload }) (o := { o with data := payload }) h (q := readRegisterLine)
        (by simp [needsBlock_readRegisterLine]) (fun _ => rfl)

theorem LoopKept.afterBlock_agree (h : LoopKept s o) (hdata : s.data = o.data) (a : ReadAnswer) :
    Agree (afterBlock a s) (afterBlock a (withTraces s o)) := by
  have hreturn : returnTransact (withTraces s o).data (withTraces s o) = returnTransact s.data (withTraces s o) :=
    congrArg (returnTransact · (withTraces s o)) hdata.symm
  have hcfg : (withTraces s o).cfg = s.cfg := rfl
  unfold afterBlock
  rw [hreturn, hcfg]
  split
  · exact h.raiseErr_agree _
  · split
    · exact h.raiseErr_agree _
    · split_ifs
      · exact h.returnTransact_agree _
      · exact h.raiseErr_agree _

/-- RESET's Register Block comes from the configuration alone (R120). -/
theorem LoopKept.startReset_agree (h : LoopKept s o) : Agree (startReset s) (startReset (withTraces s o)) := by
  have hwire := decodeWire_setRegister (p := serialize (resetBlock s.cfg)) (by rw [serialize_length]; decide)
  exact LoopKept.goTo (s := { s with rb := resetBlock s.cfg }) (o := { o with rb := resetBlock s.cfg }) h
    (q := .packet (encodePacket cmdSetRegister (serialize (resetBlock s.cfg)))) (fun _ => rfl) (by simp [needsData, hwire])

/-- An operation's head reads its operands alone, and sets the loop variable of its operation. -/
theorem startOp_agree (hscope : s.scope = .closed) : Agree (startOp s) (startOp (withTraces s o)) := by
  have hsame : currentOp (withTraces s o) = currentOp s := rfl
  unfold startOp
  rw [hsame]
  split
  case h_1 hop => exact (loopKept_of_no_loop hop rfl rfl).startReset_agree
  case h_2 hop => exact (loopKept_of_no_loop hop rfl rfl).goToFrame rdidFrame
  case h_3 hop => exact (loopKept_of_no_loop hop rfl rfl).goToFrame rduidFrame
  case h_4 a n hop =>
    unfold startReadData
    split_ifs
    · exact raiseErr_agree_outside hscope _
    · have hop' : currentOp { s with acc := [] } = some (.readData a n) := hop
      have hcleared : LoopKept { s with acc := [] } { o with acc := [] } :=
        ⟨fun _ => rfl, by simp [hop', needsChunk]⟩
      exact hcleared.readLoop_agree rfl a n
  case h_5 hop => exact (loopKept_of_no_loop hop rfl rfl).beginPage_agree _
  case h_6 hop => exact (loopKept_of_no_loop hop rfl rfl).beginPage_agree _
  case h_7 hop =>
    unfold startProgram
    split_ifs
    · exact raiseErr_agree_outside hscope _
    · exact raiseErr_agree_outside hscope _
    · exact programLoop_agree hop 0
  case h_8 hop =>
    unfold startTransact
    split_ifs
    · exact emit_agree _
    · exact (loopKept_of_no_loop hop rfl rfl).issueFrame_agree _
  case h_9 => exact emit_agree _

/-- The computation of a step leads agreeing states to agreeing lines (R33). -/
theorem proceed_agree (hinv : SequencerInv s) (h : Agree s t) : Agree (proceed s) (proceed t) := by
  obtain ⟨o, rfl⟩ := exists_traces_of_agree h
  have hseq : (withTraces s o).seq = s.seq := rfl
  have hkept : running s.seq = true → LoopKept s o := loopKept_of_agree h
  unfold proceed
  rw [hseq]
  cases hq : s.seq <;> rw [hq] at hkept <;> dsimp only
  case start => exact startOp_agree (hinv.start_clean hq).1
  case wrote => exact (hkept rfl).afterWrite_agree (hq ▸ h.rb) (hq ▸ h.data)
  case gotData => exact (hkept rfl).afterData_agree (h.rb (by rw [hq]; rfl)) _
  case gotBlock => exact (hkept rfl).afterBlock_agree (h.data (by rw [hq]; rfl)) _
  all_goals exact h

/-! ### The event at a line -/

/-- The steps from `s` to `s'` and from `t` to `t'` make the same calls and emit the same result, and `s'` and `t'` agree. -/
def Matches (s t s' t' : State) : Prop :=
  Agree s' t' ∧ (∃ new, s'.events = new ++ s.events ∧ t'.events = new ++ t.events) ∧
    (s'.result = t'.result ∨ (s'.result = s.result ∧ t'.result = t.result))

theorem LoopKept.sendPacket_matches (h : LoopKept s o) (c : Word) (p : List Byte) (next : Line)
    (hrb : next = .askData ∨ next = .recvData → s.rb = o.rb) (hdata : next = .recvBlock → s.data = o.data) :
    Matches s (withTraces s o) (sendPacket c p next s) (sendPacket c p next (withTraces s o)) :=
  ⟨LoopKept.agree (s := sendPacket c p next s) (o := { o with events := (sendPacket c p next (withTraces s o)).events }) h
    (fun hneeds => hrb (by cases next <;> simp_all [needsBlock]))
    (fun hneeds => hdata (by cases next <;> simp_all [needsData])), ⟨[_], rfl, rfl⟩, .inr ⟨rfl, rfl⟩⟩

/-- A transaction builds its Register Block from its frame and the configuration (R111). -/
theorem LoopKept.sendTransact_matches (h : LoopKept s o) (f : Frame) :
    Matches s (withTraces s o) (sendTransact f s) (sendTransact f (withTraces s o)) := by
  exact LoopKept.sendPacket_matches
    (s := { s with
      td := describe f.wbytes.length f.rdLen f.dummy
      rb := transactBlock s.cfg (describe f.wbytes.length f.rdLen f.dummy) })
    (o := { o with
      td := describe f.wbytes.length f.rdLen f.dummy
      rb := transactBlock s.cfg (describe f.wbytes.length f.rdLen f.dummy) })
    h cmdSetRegister _ (if f.rdLen ≠ 0 then .askData else .askBlock) (fun _ => rfl) (by split_ifs <;> simp)

theorem LoopKept.recvPacket_matches (h : LoopKept s o) (n : Nat) (behind : ReadAnswer → Seq)
    (hrb : ∀ a, needsBlock (behind a) = true → s.rb = o.rb)
    (hdata : ∀ a, needsData (behind a) = true → s.data = o.data) :
    Matches s (withTraces s o) (recvPacket n behind s) (recvPacket n behind (withTraces s o)) :=
  ⟨LoopKept.agree (s := recvPacket n behind s) (o := { o with events := (recvPacket n behind (withTraces s o)).events }) h
    (hrb _) (hdata _), ⟨[_], rfl, rfl⟩, .inr ⟨rfl, rfl⟩⟩

/-- An emission drops what the operation gathered (R17, R134). -/
theorem emitStep_matches (r : Result) : Matches s (withTraces s o) (emitStep r s) (emitStep r (withTraces s o)) :=
  ⟨⟨rfl, rfl, rfl, rfl, rfl, rfl, rfl, rfl, fun _ => rfl, fun _ => rfl, fun _ _ => rfl, fun _ _ => rfl⟩,
    ⟨[], rfl, rfl⟩, .inl rfl⟩

/-- A wire command writes its packet, and what its answer will be checked with is still shared. -/
theorem exec_wire_matches (h : Agree s (withTraces s o)) {raw : List Byte} (hq : s.seq = .packet raw) {i : Instr}
    (hi : decodeWire raw = .ok i) :
    ∃ s' t', exec i s = .next s' ∧ exec i (withTraces s o) = .next t' ∧ Matches s (withTraces s o) s' t' := by
  have hkept : LoopKept s o := loopKept_of_agree h (by rw [hq]; rfl)
  have hrb (hread : i = .readDataPkt) : s.rb = o.rb := h.rb (by rw [hq, needsBlock, hi, hread]; rfl)
  have hdata (hread : i = .readRegister) : s.data = o.data := h.data (by rw [hq, needsData, hi, hread]; rfl)
  rcases decodeWire_cases hi with ⟨p, rfl⟩ | rfl | rfl
  · exact ⟨_, _, rfl, rfl, hkept.sendPacket_matches cmdSetRegister p .returnEmpty (by simp) (by simp)⟩
  · exact ⟨_, _, rfl, rfl, hkept.sendPacket_matches cmdReadRegister [] .recvBlock (by simp) fun _ => hdata rfl⟩
  · exact ⟨_, _, rfl, rfl, hkept.sendPacket_matches cmdReadData [] .recvData (fun _ => hrb rfl) (by simp)⟩

theorem line_matches (hline : AtLine s) (h : Agree s t) :
    ∃ s' t', runFetched (fetchLine s) = .next s' ∧ runFetched (fetchLine t) = .next t' ∧ Matches s t s' t' := by
  obtain ⟨o, rfl⟩ := exists_traces_of_agree h
  obtain ⟨_, hline⟩ := hline
  have hkept : running s.seq = true → LoopKept s o := loopKept_of_agree h
  cases hq : s.seq <;> rw [hq] at hline hkept <;> have hqt : (withTraces s o).seq = _ := hq
  case frame f =>
    obtain ⟨hempty, hlong⟩ := hline
    rw [runFetched_frame s hq, runFetched_frame _ hqt, runTransact_of_ok hempty hlong, runTransact_of_ok hempty hlong]
    exact ⟨_, _, rfl, rfl, (hkept rfl).sendTransact_matches f⟩
  case packet raw =>
    obtain ⟨i, hi, _⟩ := hline
    rw [runFetched_instr_line (.inl ⟨raw, hq, rfl⟩) hi, runFetched_instr_line (.inl ⟨raw, hqt, rfl⟩) hi]
    exact exec_wire_matches h hq hi
  case recvData =>
    have hrb : s.rb = o.rb := h.rb (by rw [hq]; rfl)
    have hexpected : expectedBytes (withTraces s o).cfg (withTraces s o).rb = expectedBytes s.cfg s.rb :=
      congrArg (expectedBytes s.cfg) hrb.symm
    refine ⟨recvDataStep s, recvDataStep (withTraces s o), by rw [fetchLine, hq]; rfl, by rw [fetchLine, hqt]; rfl, ?_⟩
    rw [recvDataStep, recvDataStep, hexpected]
    exact (hkept rfl).recvPacket_matches _ .gotData (fun _ _ => hrb) (by simp [needsData])
  case recvBlock =>
    have hdata : s.data = o.data := h.data (by rw [hq]; rfl)
    exact ⟨recvBlockStep s, recvBlockStep (withTraces s o), by rw [fetchLine, hq]; rfl, by rw [fetchLine, hqt]; rfl,
      (hkept rfl).recvPacket_matches blockBytes .gotBlock (by simp [needsBlock]) (fun _ _ => hdata)⟩
  case emit r =>
    exact ⟨emitStep r s, emitStep r (withTraces s o), by rw [fetchLine, hq]; rfl, by rw [fetchLine, hqt]; rfl,
      emitStep_matches r⟩
  all_goals exact hline.elim

/-- The sequencer's own step. -/
theorem sequencer_matches (hinv : SequencerInv s) (h : Agree s t) :
    ∃ s' t', runFetched (fetchSeq s) = .next s' ∧ runFetched (fetchSeq t) = .next t' ∧ Matches s t s' t' := by
  by_cases hidle : s.seq = .idle
  · exact ⟨s, t, runFetched_idle hidle, runFetched_idle (h.seq ▸ hidle), h, ⟨[], rfl, rfl⟩, .inr ⟨rfl, rfl⟩⟩
  · obtain ⟨s', t', hs, ht, hagree, hcalls, hresult⟩ := line_matches (proceed_atLine hinv hidle) (proceed_agree hinv h)
    rw [proceed_events, proceed_events] at hcalls
    rw [proceed_result, proceed_result] at hresult
    exact ⟨s', t', hs, ht, hagree, hcalls, hresult⟩

/-! ### The request port -/

theorem agree_usbClose (h : Agree s t) : Agree (usbClose s) (usbClose t) := { h with session := rfl }

/-- An Open makes the same call and writes the same RESULT. -/
theorem openHandle_matches (h : Agree s t) : Matches s t (openHandle s) (openHandle t) := by
  obtain ⟨o, rfl⟩ := exists_traces_of_agree h
  have hanswer : answerOpen (withTraces s o) = answerOpen s := rfl
  unfold openHandle usbOpen
  rw [hanswer]
  cases (answerOpen s).1 <;> exact ⟨{ h with session := rfl, env := rfl }, ⟨[_], rfl, rfl⟩, .inl rfl⟩

theorem exec_openSession_matches (h : Agree s t) (hidle : s.seq = .idle) :
    ∃ s' t', exec .openSession s = .next s' ∧ exec .openSession t = .next t' ∧ Matches s t s' t' := by
  simp only [exec, execOpenSession, if_pos hidle, if_pos (h.seq ▸ hidle), ← h.session]
  split_ifs
  · obtain ⟨hagree, ⟨new, hs, ht⟩, hresult⟩ := openHandle_matches (agree_usbClose h)
    exact ⟨_, _, rfl, rfl, hagree,
      ⟨new ++ [.closed], hs.trans (List.append_cons ..), ht.trans (List.append_cons ..)⟩, hresult⟩
  · exact ⟨_, _, rfl, rfl, openHandle_matches h⟩

theorem exec_session_matches (h : Agree s t) {b : BitVec 1} (hb : b = 1#1 ∨ s.seq = .idle) :
    ∃ s' t', exec (decodeSession b) s = .next s' ∧ exec (decodeSession b) t = .next t' ∧ Matches s t s' t' := by
  rcases signal_cases b with rfl | rfl
  · exact exec_openSession_matches h (hb.resolve_left (by decide))
  · exact ⟨usbClose s, usbClose t, rfl, rfl, agree_usbClose h, ⟨[.closed], rfl, rfl⟩, .inr ⟨rfl, rfl⟩⟩

/-- As what a request is latched, and where it goes, depends on the request alone. -/
theorem exec_request_eq_accept (r : Request) : ∃ r' q, (q = .start ∨ q = .emit (.ok [])) ∧
    ∀ s, exec (decodeRequest r) s = .next (accept r' q s) := by
  unfold decodeRequest
  split <;> refine ⟨_, _, ?_, fun _ => rfl⟩
  case h_8 => split_ifs <;> simp
  all_goals exact .inl rfl

theorem exec_request_matches (h : Agree s t) (r : Request) (hidle : s.seq = .idle) :
    ∃ s' t', exec (decodeRequest r) s = .next s' ∧ exec (decodeRequest r) t = .next t' ∧ Matches s t s' t' := by
  obtain ⟨o, rfl⟩ := exists_traces_of_agree h
  obtain ⟨r', q, hq, hexec⟩ := exec_request_eq_accept r
  have hout : running q = false := by rcases hq with rfl | rfl <;> rfl
  rw [hexec, hexec, accept_idle s hidle, accept_idle (withTraces s o) hidle]
  exact ⟨_, _, rfl, rfl, agree_of_not_running (s := { s with req := some r', seq := q }) hout, ⟨[], rfl, rfl⟩,
    .inr ⟨rfl, rfl⟩⟩

/-! ### The step -/

/-- What stands at the request port, and whether the block is busy, decide alike in both states. -/
theorem step_matches (hinv : SequencerInv s) (h : Agree s t) :
    ∃ s' t', step s = .next s' ∧ step t = .next t' ∧ Matches s t s' t' := by
  obtain ⟨o, rfl⟩ := exists_traces_of_agree h
  have hport : (withTraces s o).port = s.port := rfl
  have hseq : (withTraces s o).seq = s.seq := rfl
  have hrest (rest : List PortInput) : Agree { s with port := rest } { withTraces s o with port := rest } :=
    { h with port := rfl }
  unfold step fetch
  rw [hport, hseq]
  cases s.port with
  | nil => exact sequencer_matches hinv h
  | cons x rest =>
    cases x with
    | nothing => exact sequencer_matches (withPort_inv hinv rest) (hrest rest)
    | session b =>
      dsimp only
      split_ifs with hb
      · exact exec_session_matches (hrest rest) hb
      · exact sequencer_matches hinv h
    | request r =>
      dsimp only
      split_ifs with hidle
      · exact exec_request_matches (hrest rest) r hidle
      · exact sequencer_matches hinv h

end Sys2Proof.Proofs.Noninterference

open Sys2Proof Sys2Proof.Machine Sys2Proof.Safety Sys2Proof.Proofs.Noninterference in
/-- Settles O56: the two states take the same item off the port, or their computations lead to agreeing lines, whose events
match. -/
theorem earlierRequestsLeaveNoTrace : Obligations.EarlierRequestsLeaveNoTrace := by
  unfold Obligations.EarlierRequestsLeaveNoTrace
  intro s t s' hinv hagree hstep
  obtain ⟨_, t', hs, ht, hagree', ⟨new, hs', ht'⟩, hresult⟩ := step_matches hinv hagree
  cases hs.symm.trans hstep
  exact ⟨t', new, ht, hagree', hs', ht', hresult⟩
end

section
/-! A closed session (70_reset_and_hazards.md R150, R151): what Open and Close leave, and how a request ends whose next write
finds no handle. -/

namespace Sys2Proof.Proofs.ClosedSession

open Sys2Proof.Machine Sys2Proof.Safety Sys2Proof.Proofs.Steps Sys2Proof.Proofs.Sequencer Sys2Proof.Proofs.Acceptance
  Sys2Proof.Proofs.FlashRanges Sys2Proof.Proofs.ReferenceRuns Sys2Proof.Proofs.PacketCodec Sys2Proof.Proofs.HeldRequests
  Sys2Proof.Proofs.ScriptedOperations Sys2Proof.Proofs.Chunks

variable {s t v : State} {raw : List Byte} {r : Request}

/-! ### The session actions (R150) -/

theorem openHandle_of_opened (h : (answerOpen s).1 = .opened) : openHandle s = { s with
    session := .opened
    result := some (.ok [])
    env := (answerOpen s).2
    events := .opened s.cfg.vendorId s.cfg.productId (answerOpen s).1 :: s.events } := by
  simp only [openHandle, usbOpen, h]

theorem openHandle_of_notFound (h : (answerOpen s).1 = .notFound) : openHandle s = { s with
    session := .closed
    result := some (.err (.notFound s.cfg.vendorId s.cfg.productId))
    env := (answerOpen s).2
    events := .opened s.cfg.vendorId s.cfg.productId (answerOpen s).1 :: s.events } := by
  simp only [openHandle, usbOpen, h]

theorem step_takes_close {rest : List PortInput} (hport : s.port = .session 1 :: rest) :
    step s = .next (usbClose { s with port := rest }) :=
  step_of_fetch_instr (i := .closeSession) s (by rw [fetch, hport]; exact if_pos (.inl rfl)) rfl

/-- The computation behind an event reads neither SESSION nor the port nor the calls of the past. -/
theorem proceed_usbClose (s : State) (rest : List PortInput) :
    proceed (usbClose { s with port := rest }) = usbClose { proceed s with port := rest } := by
  have hout := proceed_withOutside s ⟨s.result, .closed, rest, s.env, .closed :: s.events⟩
  refine hout.trans ?_
  simp only [State.withOutside, usbClose, proceed_result, proceed_env, proceed_events]

/-! ### A write that finds no handle (R99, decision D43) -/

/-- The event at the line `v` is the write of `raw`, and leads to `t`. -/
structure WritesTo (raw : List Byte) (v t : State) : Prop where
  runs : runFetched (fetchLine v) = .next t
  behind : BehindWrite raw v t

theorem writesTo_of_frame {f : Frame} (hq : v.seq = .frame f) (hempty : frameEmpty f = false)
    (hlong : frameTooLong f = false) : WritesTo (setPacket v.cfg f) v (sendTransact f v) where
  runs := by rw [runFetched_frame v hq, runTransact_of_ok hempty hlong]
  behind := sendTransact_behindWrite v f

theorem writesTo_of_setRegister {p : List Byte} (hq : v.seq = .packet (encodePacket cmdSetRegister p))
    (hp : p.length < payloadLimit) :
    WritesTo (encodePacket cmdSetRegister p) v (sendPacket cmdSetRegister p .returnEmpty v) where
  runs := by rw [runFetched_instr_line (.inl ⟨_, hq, rfl⟩) (decodeWire_setRegister hp)]; rfl
  behind := sendPacket_behindWrite v _ _ _

/-- Without a handle the write is recorded and reaches nothing. -/
theorem WritesTo.unanswered (h : WritesTo raw v t) (hclosed : v.session = .closed) :
    t.events = .wrote raw v.cfg.timeoutMs (.failed .io) :: v.events ∧ t.env = v.env := by
  obtain ⟨hevents, henv, -, -, -⟩ := h.behind
  rw [answerWrite_closed v hclosed] at hevents henv
  exact ⟨hevents, henv⟩

/-- The failed write's error is raised, and where that ends the operation the next step emits it. -/
theorem WritesTo.emits {n : Nat} {res : Result} (h : WritesTo raw v t) (hlead : LeadsTo n s v) (hport : v.port = [])
    (hclosed : v.session = .closed) (hemit : (raiseErr (.transportError .io) t).seq = .emit res) :
    runSteps (n + 1 + 1) s = .next (emitStep res (raiseErr (.transportError .io) t)) := by
  have hline : proceed v = v := by
    obtain ⟨_, _, _, rfl⟩ := hlead
    exact proceed_of_atLine (proceed_at_line _)
  have hstep : step v = .next t := by rw [step_no_input hport, hline, h.runs]
  have htport : t.port = [] := (line_port h.runs).trans hport
  have hfails : checkWrite raw.length (answerWrite raw v).1 = some (.transportError .io) := by
    rw [answerWrite_closed v hclosed, checkWrite_failed]
  have hraised : LeadsTo 1 v (raiseErr (.transportError .io) t) :=
    ⟨t, runSteps_one hstep, htport, h.behind.proceed_of_error hfails⟩
  exact (hlead.trans hraised).emits ((raiseErr_port t _).trans htport) hemit

/-! ### The first write of a request (R151) -/

/-- A payload with a byte to program has a chunk that is not blank (R130). -/
theorem skipBlank_lt_of_nonblank {p : List Byte} {n : Nat} (h : ∃ b ∈ p, b ≠ 0xFF#8) :
    skipBlank p n p.length 0 * n < p.length := by
  obtain ⟨b, hb, hne⟩ := h
  by_contra hend
  rw [← List.take_of_length_le (Nat.not_lt.1 hend), ← flatMap_programChunk, List.mem_flatMap] at hb
  obtain ⟨j, hj, hchunk⟩ := hb
  obtain ⟨_, hblank⟩ := skipBlank_passes_blank p n p.length 0 j j.zero_le (List.mem_range.1 hj)
  rw [chunkBlank, List.all_eq_true] at hblank
  exact hne (by simpa using hblank b hchunk)

/-- The head of the request `r`, right behind its acceptance, leads to the write of `raw` outside any scope. -/
def HeadWrites (raw : List Byte) (r : Request) (s : State) : Prop :=
  (startOp (taken r s)).scope = .closed ∧ ∃ t, WritesTo raw (startOp (taken r s)) t

theorem headWrites_of_frame {f : Frame} {acc : List Byte} {k : Nat} (hscope : s.scope = .closed)
    (hempty : frameEmpty f = false) (hlong : frameTooLong f = false)
    (hhead : startOp (taken r s) = { taken r s with acc := acc, k := k, seq := .frame f }) :
    HeadWrites (setPacket s.cfg f) r s := by
  rw [HeadWrites, hhead]
  exact ⟨hscope, _, writesTo_of_frame (v := { taken r s with acc := acc, k := k, seq := .frame f }) rfl hempty hlong⟩

/-- The head of a READ_DATA that has something to read inside 24 bits stands at its first chunk (R123). -/
theorem startOp_readData_pos {a n : Nat} (hop : currentOp s = some (.readData a n)) (ha : a < 2 ^ 24)
    (hn : a + n ≤ 2 ^ 24) (hpos : n ≠ 0) :
    startOp s = { s with acc := [], seq := .frame (fastReadFrame a (min maxXfer n)) } := by
  have hhead : startOp s = startReadData a n s := by rw [startOp, hop]
  rw [hhead, startReadData_of_fits ha hn, readLoop_nil_pos a rfl hpos]

/-- A mutating operation that passes its checks and has something to erase or to program (R128 to R130). -/
def OpensScope (i : Instr) : Prop :=
  (∃ a, i = .erase64kb a ∧ a < 2 ^ 24) ∨ (∃ a p, i = .programPage a p ∧ a < 2 ^ 24) ∨
    (∃ a p n, i = .program a p n ∧ n ≠ 0 ∧ a < 2 ^ 24 ∧ a + p.length ≤ 2 ^ 24 ∧ ∃ b ∈ p, b ≠ 0xFF#8)

/-- Its head stands at the first WREN. -/
theorem startOp_of_opensScope {i : Instr} (hop : currentOp s = some i) (h : OpensScope i) :
    ∃ k, startOp s = { s with k := k, seq := .frame wrenFrame } := by
  rcases h with ⟨a, rfl, ha⟩ | ⟨a, p, rfl, ha⟩ | ⟨a, p, n, rfl, hn, ha, hp, hbyte⟩ <;> rw [startOp, hop]
  · exact ⟨s.k, (startErase64kb_eq_beginPage a).trans (beginPage_of_fits ha)⟩
  · exact ⟨s.k, beginPage_of_fits ha⟩
  · exact ⟨_, (startProgram_of_fits hn ha hp).trans (programLoop_of_chunk hp (skipBlank_lt_of_nonblank hbyte))⟩

theorem accepted_of_opensScope {i : Instr} (h : OpensScope i) : ∃ r, encode i = .request r ∧ decodeRequest r = i ∧
    exec i { s with seq := .idle, port := [] } = .next (taken r s) := by
  rcases h with ⟨_, rfl, _⟩ | ⟨_, _, rfl, _⟩ | ⟨_, _, _, rfl, _⟩ <;> exact ⟨_, rfl, rfl, rfl⟩

theorem startOp_transact_short {w : List Byte} {n d : Nat} (hop : currentOp s = some (.transact w n d))
    (hempty : frameEmpty ⟨w, n, d⟩ = false) (hshort : 40 + (w.length + paddingOf w.length) < 2 ^ 32) :
    startOp s = { s with seq := .frame ⟨w, n, d⟩ } := by
  have hhead : startOp s = startTransact ⟨w, n, d⟩ s := by rw [startOp, hop]
  rw [hhead, startTransact_of_short hempty hshort]

/-- A TRANSACT that is not the empty one goes to its start (R106). -/
theorem exec_transact_accepted {w : List Byte} {n d : Nat} (hempty : frameEmpty ⟨w, n, d⟩ = false)
    (hidle : s.seq = .idle) :
    exec (.transact w n d) s = .next (accepted { bareRequest 7 with wbytes := w, rdLen := n, dummy := d } s) := by
  simp only [exec, execTransact, hempty, Bool.false_eq_true, if_false, accept_idle s hidle, accepted]

/-- A request whose first write finds no handle is answered with that write's error. -/
theorem HeadWrites.fails (h : HeadWrites raw r s)
    (haccept : exec (decodeRequest r) { s with seq := .idle, port := [] } = .next (taken r s))
    (hclosed : s.session = .closed) :
    ∃ u, runSteps 3 (presented r s) = .next u ∧ u.seq = .idle ∧ u.result = some (.err (.transportError .io)) ∧
      u.env = s.env ∧ u.events = .wrote raw s.cfg.timeoutMs (.failed .io) :: s.events := by
  obtain ⟨hscope, t, hwrites⟩ := h
  have hsession : (startOp (taken r s)).session = .closed := (startOp_session _).trans hclosed
  have htscope : t.scope = .closed := hwrites.behind.scope.trans hscope
  obtain ⟨hevents, henv⟩ := hwrites.unanswered hsession
  rw [startOp_events, startOp_cfg] at hevents
  rw [startOp_env] at henv
  refine ⟨_, hwrites.emits (presented_leadsTo haccept) (startOp_port _) hsession
    (congrArg State.seq (raiseErr_outside t htscope)), rfl, rfl, ?_, ?_⟩
  · rw [emitStep_env, raiseErr_env, henv]
    rfl
  · rw [emitStep_events, raiseErr_events, hevents]
    rfl

end Sys2Proof.Proofs.ClosedSession

open Sys2Proof Sys2Proof.Machine Sys2Proof.Safety Sys2Proof.Proofs.ClosedSession in
/-- Settles O25: the handle that is held is given back before the open call, whose answer says what is left. -/
theorem sessionActions : Obligations.SessionActions := by
  unfold Obligations.SessionActions
  intro s
  refine ⟨fun hidle => ?_, fun hbusy => congrArg Host.Outcome.next (if_neg hbusy), rfl⟩
  simp only [exec, execOpenSession, if_pos hidle]
  refine ⟨fun ha => ?_, fun ha => ?_⟩
  · split_ifs
    · exact congrArg Host.Outcome.next (openHandle_of_opened (s := usbClose s) ha)
    · exact congrArg Host.Outcome.next (openHandle_of_opened ha)
  · split_ifs
    · exact congrArg Host.Outcome.next (openHandle_of_notFound (s := usbClose s) ha)
    · exact congrArg Host.Outcome.next (openHandle_of_notFound ha)

open Sys2Proof Sys2Proof.Machine Sys2Proof.Safety Sys2Proof.Proofs.Sequencer Sys2Proof.Proofs.Acceptance
  Sys2Proof.Proofs.FlashRanges Sys2Proof.Proofs.Chunks Sys2Proof.Proofs.ScriptedOperations
  Sys2Proof.Proofs.ClosedSession in
/-- Settles O45: each operation's head leads to its first packet, whose write fails outside any scope. -/
theorem noSessionFailsTheFirstCall : Obligations.NoSessionFailsTheFirstCall := by
  unfold Obligations.NoSessionFailsTheFirstCall
  intro s i raw hport hscope hclosed hrequest
  obtain ⟨r, hr, haccept, hhead⟩ : ∃ r, encode i = .request r ∧
      exec (decodeRequest r) { s with seq := .idle, port := [] } = .next (taken r s) ∧ HeadWrites raw r s := by
    rcases hrequest with ⟨rfl, rfl⟩ | ⟨rfl, rfl⟩ | ⟨rfl, rfl⟩ | ⟨a, n, rfl, ha, hn, hpos, rfl⟩ | ⟨hopens, rfl⟩ |
      ⟨w, m, d, rfl, hwork, hshort, rfl⟩
    · refine ⟨_, rfl, rfl, hscope, _, writesTo_of_setRegister (p := serialize (resetBlock s.cfg)) rfl ?_⟩
      rw [serialize_length]
      decide
    · exact ⟨_, rfl, rfl, headWrites_of_frame (f := rdidFrame) hscope (by decide) (by decide) rfl⟩
    · exact ⟨_, rfl, rfl, headWrites_of_frame (f := rduidFrame) hscope (by decide) (by decide) rfl⟩
    · obtain ⟨hempty, hlong⟩ : LineOk .closed (.frame (fastReadFrame a (min maxXfer n))) := fastReadFrame_ok _ _
      exact ⟨_, rfl, rfl, headWrites_of_frame hscope hempty hlong (startOp_readData_pos rfl ha hn hpos)⟩
    · obtain ⟨r, hr, rfl, haccept⟩ := accepted_of_opensScope (s := s) hopens
      obtain ⟨k, hhead⟩ := startOp_of_opensScope (s := taken r s) rfl hopens
      exact ⟨r, hr, haccept, headWrites_of_frame (f := wrenFrame) hscope (by decide) (by decide) hhead⟩
    · have hempty : frameEmpty ⟨w, m, d⟩ = false := frameEmpty_of_work d hwork
      have hlong : frameTooLong ⟨w, m, d⟩ = false := by
        rw [Bool.eq_false_iff, Ne, frameTooLong_iff]
        exact Nat.not_le.2 hshort
      exact ⟨_, rfl, exec_transact_accepted hempty rfl,
        headWrites_of_frame hscope hempty hlong (startOp_transact_short rfl hempty hshort)⟩
  rw [hr, withEncoded_request r hport]
  exact hhead.fails haccept hclosed

open Sys2Proof Sys2Proof.Machine Sys2Proof.Safety Sys2Proof.Proofs.ReferenceRuns Sys2Proof.Proofs.ClosedSession in
/-- Settles O46: the Close leaves the poll's line as it was; its write fails in the scope's exit, which ends the request. -/
theorem closeEndsThePoll : Obligations.CloseEndsThePoll := by
  unfold Obligations.CloseEndsThePoll
  intro s hq hscope hport
  have hlead : LeadsTo 1 s (usbClose { proceed s with port := [] }) :=
    ⟨_, runSteps_one (step_takes_close hport), rfl, proceed_usbClose s []⟩
  have hwrites := writesTo_of_frame (v := usbClose { proceed s with port := [] }) hq (by decide) (by decide)
  have hexit := raiseErr_exit (sendTransact ⟨[0x05], 1, 0⟩ (usbClose { proceed s with port := [] }))
    (e := .transportError .io) (.inl hscope)
  obtain ⟨hevents, henv⟩ := hwrites.unanswered rfl
  refine ⟨_, hwrites.emits hlead rfl rfl (congrArg State.seq hexit), rfl, ?_, ?_, ?_, rfl, ?_, ?_⟩
  · rw [emitStep_session, raiseErr_session]
    rfl
  · rw [emitStep_scope, hexit]
  · rw [emitStep_pendingErr, hexit]
  · rw [emitStep_events, raiseErr_events, hevents]
    simp only [usbClose, proceed_cfg, proceed_events]
  · rw [emitStep_env, raiseErr_env, henv]
    exact proceed_env s
end
